-- ==== Sys2Proof/Word.lean ====
section
/-! DEFINITION. The unsigned word types of the block (spec/00_scope.md R8: u8, u16, u32, u64). -/

namespace Sys2Proof

/-- u8 of R8: a frame byte, an address, an opcode, a command code, a status code. -/
abbrev Byte := BitVec 8

/-- u16 of R8: the sequence number, the data length, the CRC. -/
abbrev Word16 := BitVec 16

/-- u32 of R8: the halves of a timeout, the transport's error code, offsets and counts. -/
abbrev Word32 := BitVec 32

/-- u64 of R8: `TIMER` and the value `READ_REG` returns. -/
abbrev Word64 := BitVec 64

end Sys2Proof
end

