-- ==== Sys2Proof/Config.lean ====
section
/-! DEFINITION. What an implementation fixes (spec/00_scope.md R5): the OPEN parameters, which the spec gives no value.
The decided parameters of R5 (the CRC's and the order of its bytes) stand in Sys2Proof/Machine/Parameters.lean. -/

namespace Sys2Proof

/-- A timeout as R5 and R36 write it: seconds and microseconds. -/
structure Timeout where
  sec : Word32
  usec : Word32
deriving DecidableEq, Repr

/-- R37: a byte timeout is legal when its microseconds are below one million; all-zero is legal (disabled). -/
def Timeout.legalByte (t : Timeout) : Bool := decide (t.usec.toNat < 1000000)

/-- R36: a response timeout is moreover not the zero pair. -/
def Timeout.legalResp (t : Timeout) : Bool :=
  t.legalByte && !(t.sec == 0 && t.usec == 0)

/-- The OPEN parameters of R5, as one record: a machine is built with one such record and never changes it. -/
structure Params where
  /-- `PREAMBLE` (D5): the eight bytes the encoder writes first. -/
  preamble : Vector Byte 8
  /-- `OWN_ADDR_RESET` (D7). -/
  ownAddrReset : Byte
  /-- `MAX_FRAME_LEN` (D10). -/
  maxFrameLen : Nat
  /-- `RESP_TO_RESET` (D12). -/
  respToReset : Timeout
  /-- `BYTE_TO_RESET` (D12). -/
  byteToReset : Timeout
deriving DecidableEq, Repr

/-- The constraints R5 puts on the OPEN parameters. -/
def Params.legal (p : Params) : Bool :=
  decide (17 ≤ p.maxFrameLen) && decide (p.maxFrameLen ≤ 65552)
    && p.respToReset.legalResp && p.byteToReset.legalByte

namespace Config

/-- `PREAMBLE` of R5 (OPEN): no value is given, none is chosen. -/
opaque preamble : Vector Byte 8

/-- `OWN_ADDR_RESET` of R5 (OPEN). -/
opaque ownAddrReset : Byte

/-- `MAX_DATA` of R6 (OPEN through `MAX_FRAME_LEN`): as a u16 it ranges over exactly 0 to 65535, so that
`MAX_FRAME_LEN = 17 + MAX_DATA` ranges over exactly the 17 to 65552 of R5. -/
opaque maxData : Word16

/-- `RESP_TO_RESET` of R5 (OPEN), as its number of microseconds less one: the type has one value for each legal pair. -/
opaque respToResetTicks : Fin 4294967295999999

/-- `BYTE_TO_RESET` of R5 (OPEN), as its number of microseconds: the type has one value for each legal pair. -/
opaque byteToResetTicks : Fin 4294967296000000

/-- The pair of seconds and microseconds that lasts `t` microseconds (R8's `timeout_us`, read backwards). -/
def timeoutOfTicks (t : Nat) : Timeout :=
  ⟨BitVec.ofNat 32 (t / 1000000), BitVec.ofNat 32 (t % 1000000)⟩

/-- The OPEN parameters of this machine: any record R5 allows, and nothing known about which. -/
def params : Params where
  preamble := preamble
  ownAddrReset := ownAddrReset
  maxFrameLen := 17 + maxData.toNat
  respToReset := timeoutOfTicks (respToResetTicks.val + 1)
  byteToReset := timeoutOfTicks byteToResetTicks.val

end Config

end Sys2Proof
end

