-- ==== Sys2Proof/Machine/Operands.lean ====
section
/-! DEFINITION. Operand assembly (spec/30_encoding.md R107, R108) and the notation of spec/00_scope.md R8 it uses. Every
multi-byte operand is big-endian (spec/20_memory.md R72, R74). -/

namespace Sys2Proof.Machine

/-- R8: `be16(h, l) = h * 256 + l`. -/
def be16 (h l : Byte) : Word16 := h ++ l

/-- R104, R107: four bytes assembled big-endian. -/
def be32 (b3 b2 b1 b0 : Byte) : Word32 := b3 ++ b2 ++ b1 ++ b0

/-- R8: `hi8(v) = v[15:8]`. -/
def hi8 (v : Word16) : Byte := v.extractLsb' 8 8

/-- R8: `lo8(v) = v[7:0]`. -/
def lo8 (v : Word16) : Byte := v.extractLsb' 0 8

/-- R72: the two bytes of a u16 field, the more significant first. -/
def be16Bytes (v : Word16) : List Byte := [hi8 v, lo8 v]

/-- R74: the four bytes of a u32 operand, the most significant first. -/
def be32Bytes (v : Word32) : List Byte :=
  [v.extractLsb' 24 8, v.extractLsb' 16 8, v.extractLsb' 8 8, v.extractLsb' 0 8]

/-- R91, R104: the two bytes of a length field. -/
def lengthBytes (n : Nat) : List Byte := be16Bytes (BitVec.ofNat 16 n)

/-- R96 to R98: bit 7 of a command byte. -/
def highBit (cmd : Byte) : Bool := decide (0x80 ≤ cmd.toNat)

/-- R98: the command byte of a valid exception frame for a request with command `q`: `q | 0x80`. -/
abbrev exceptionOf (q : Byte) : Byte := q ||| 0x80

/-- R237: `zext_64(off) << 32 | zext_64(n)`. -/
def packLocation (off : Nat) (n : Word16) : Word64 :=
  (BitVec.ofNat 64 off <<< 32) ||| n.setWidth 64

end Sys2Proof.Machine
end

