-- ==== Sys2Proof/Syntax.lean ====
section
/-! DEFINITION. The inputs of the block, one constructor per mnemonic of spec/opcode_table.json: the host operations of
spec/30_encoding.md R105, the opcodes that are illegal there (R136), the environment events of R106 and, for the command
codes of R96 to R99, the `TX_BUILD` operation by the name of the command byte it carries. -/

namespace Sys2Proof

/-- Where an input's bytes arrive (spec/10_state.md R47; spec/00_scope.md R10: "one host operation, or one environment
event"). The codes of the two overlap, so the port says which table of spec/opcode_table.json (its column "input") reads
them. -/
inductive Port where
  /-- "host operation": the opcodes of R105. -/
  | host
  /-- "environment event": the codes of R106. -/
  | event
deriving DecidableEq, Repr

/-- One input of the block. -/
inductive Instr where
  /-- `SET_SLAVE a` (R131). -/
  | setSlave (a : Byte)
  /-- `SET_OWN_ADDR a` (R132). -/
  | setOwnAddr (a : Byte)
  /-- `SET_RESP_TIMEOUT sec, usec` (R133). -/
  | setRespTimeout (sec usec : Word32)
  /-- `SET_BYTE_TIMEOUT sec, usec` (R134). -/
  | setByteTimeout (sec usec : Word32)
  /-- `READ_REG r` (R135). -/
  | readReg (r : Byte)
  /-- `CRC_INIT` (R153). -/
  | crcInit
  /-- `CRC_UPDATE b` (R154). -/
  | crcUpdate (b : Byte)
  /-- `TX_BUILD cmd, data` (R173). -/
  | txBuild (cmd : Byte) (data : List Byte)
  /-- `RX_START` (R195). -/
  | rxStart
  /-- `RX_READ i` (R204). -/
  | rxRead (i : Word32)
  /-- `RX_CONFIRM` (R237). -/
  | rxConfirm
  /-- The illegal opcode 0x00 (R136). -/
  | illegalOp00
  /-- An illegal opcode of 0x06 to 0x07 (R136); `op` is the opcode byte. -/
  | illegalOp06To07 (op : Byte)
  /-- An illegal opcode of 0x08 to 0x0F (R136). -/
  | illegalOp08To0F (op : Byte)
  /-- An illegal opcode of 0x12 to 0x13 (R136). -/
  | illegalOp12To13 (op : Byte)
  /-- An illegal opcode of 0x14 to 0x17 (R136). -/
  | illegalOp14To17 (op : Byte)
  /-- An illegal opcode of 0x18 to 0x1F (R136). -/
  | illegalOp18To1F (op : Byte)
  /-- The illegal opcode 0x21 (R136). -/
  | illegalOp21
  /-- An illegal opcode of 0x22 to 0x23 (R136). -/
  | illegalOp22To23 (op : Byte)
  /-- An illegal opcode of 0x24 to 0x27 (R136). -/
  | illegalOp24To27 (op : Byte)
  /-- An illegal opcode of 0x28 to 0x2F (R136). -/
  | illegalOp28To2F (op : Byte)
  /-- The illegal opcode 0x33 (R136). -/
  | illegalOp33
  /-- An illegal opcode of 0x34 to 0x37 (R136). -/
  | illegalOp34To37 (op : Byte)
  /-- An illegal opcode of 0x38 to 0x3F (R136). -/
  | illegalOp38To3F (op : Byte)
  /-- An illegal opcode of 0x40 to 0x7F (R136). -/
  | illegalOp40To7F (op : Byte)
  /-- An illegal opcode of 0x80 to 0xFF (R136). -/
  | illegalOp80ToFF (op : Byte)
  /-- `@RX_BYTE b` (R196, R198). -/
  | rxByte (b : Byte)
  /-- `@RX_EOF` (R201). -/
  | rxEof
  /-- `@RX_ERROR code` (R202). -/
  | rxError (code : Word32)
  /-- `@TICK` (R200). -/
  | tick
  /-- `@RESET` (R270). -/
  | reset
  /-- `TX_BUILD` with command 0x00, set-color (R96). This and the six below are no inputs of their own: their bytes are
  the host operation's. DESIGN CHOICE: see notes/assumptions/4.md. -/
  | cmdSetColor (data : List Byte)
  /-- `TX_BUILD` with command 0x01, set-mode (R96). -/
  | cmdSetMode (data : List Byte)
  /-- `TX_BUILD` with command 0x02, OTA (R96). -/
  | cmdOta (data : List Byte)
  /-- `TX_BUILD` with command 0x03, get-version (R96). -/
  | cmdGetVersion (data : List Byte)
  /-- `TX_BUILD` with command 0x04, set-output (R96). -/
  | cmdSetOutput (data : List Byte)
  /-- `TX_BUILD` with a command of 0x05 to 0x7F (R97). -/
  | cmdUnrecognized (code : Byte) (data : List Byte)
  /-- `TX_BUILD` with a command of 0x80 to 0xFF (R98, R99). -/
  | cmdException (code : Byte) (data : List Byte)
deriving DecidableEq, Repr

end Sys2Proof
end

