-- ==== Sys2Proof/Decode.lean ====
section
/-! DEFINITION. The decoder of the block's inputs (spec/30_encoding.md R104 to R107), total on any bytes, and after it the
encoder. A decoder takes the bytes of one byte string and gives back the bytes it leaves. -/

namespace Sys2Proof

open Machine (be16 be32 be16Bytes be32Bytes lengthBytes)

/-- Why bytes are no input of the block. The decoder answers it and the block takes no step: safe. -/
inductive DecodeError where
  /-- There are no bytes. -/
  | empty
  /-- R106: the event input carries a code that is no event. -/
  | notAnEvent (code : Byte)
  /-- R104: the byte string ends before the operation's last operand byte. -/
  | truncated
  /-- No row of the opcode table reads this opcode: never answered, the rows cover every byte (R105). -/
  | unlisted (opcode : Byte)
deriving DecidableEq, Repr

/-- What the decoder answers: an input and the bytes it leaves, or why there is none. -/
abbrev Decoded := Except DecodeError (Instr × List Byte)

/-! ### The rows of the host operation port -/

/-- The rows of spec/opcode_table.json whose opcode is illegal (R105, R136), each by its lowest opcode. -/
inductive IllegalRow where
  | from00 | from06 | from08 | from12 | from14 | from18 | from21 | from22 | from24 | from28 | from33 | from34 | from38
  | from40 | from80
deriving DecidableEq, Repr

/-- The rows of spec/opcode_table.json with the input "host operation". -/
inductive HostRow where
  | setSlave | setOwnAddr | setRespTimeout | setByteTimeout | readReg | crcInit | crcUpdate | txBuild | rxStart | rxRead
  | rxConfirm
  | illegal (row : IllegalRow)
deriving DecidableEq, Repr

/-- One row: an opcode byte `op` belongs to it when `op & mask = pattern`. -/
structure OpcodeRow where
  pattern : Byte
  mask : Byte
  row : HostRow
deriving DecidableEq, Repr

/-- R105's table, with the match and mask spec/opcode_table.json gives each row. -/
def hostRows : List OpcodeRow :=
  [⟨0x01, 0xFF, .setSlave⟩, ⟨0x02, 0xFF, .setOwnAddr⟩, ⟨0x03, 0xFF, .setRespTimeout⟩,
   ⟨0x04, 0xFF, .setByteTimeout⟩, ⟨0x05, 0xFF, .readReg⟩, ⟨0x10, 0xFF, .crcInit⟩,
   ⟨0x11, 0xFF, .crcUpdate⟩, ⟨0x20, 0xFF, .txBuild⟩, ⟨0x30, 0xFF, .rxStart⟩,
   ⟨0x31, 0xFF, .rxRead⟩, ⟨0x32, 0xFF, .rxConfirm⟩]
  ++
  [⟨0x00, 0xFF, .illegal .from00⟩, ⟨0x06, 0xFE, .illegal .from06⟩, ⟨0x08, 0xF8, .illegal .from08⟩,
   ⟨0x12, 0xFE, .illegal .from12⟩, ⟨0x14, 0xFC, .illegal .from14⟩, ⟨0x18, 0xF8, .illegal .from18⟩,
   ⟨0x21, 0xFF, .illegal .from21⟩, ⟨0x22, 0xFE, .illegal .from22⟩, ⟨0x24, 0xFC, .illegal .from24⟩,
   ⟨0x28, 0xF8, .illegal .from28⟩, ⟨0x33, 0xFF, .illegal .from33⟩, ⟨0x34, 0xFC, .illegal .from34⟩,
   ⟨0x38, 0xF8, .illegal .from38⟩, ⟨0x40, 0xC0, .illegal .from40⟩, ⟨0x80, 0x80, .illegal .from80⟩]

/-- The opcode byte belongs to the row. -/
def OpcodeRow.reads (r : OpcodeRow) (op : Byte) : Bool := op &&& r.mask == r.pattern

/-- The row of an opcode byte. -/
def hostRow (op : Byte) : Option HostRow := (hostRows.find? (·.reads op)).map (·.row)

/-- The input an illegal opcode is (R136). -/
def illegalInstr (op : Byte) : IllegalRow → Instr
  | .from00 => .illegalOp00
  | .from06 => .illegalOp06To07 op
  | .from08 => .illegalOp08To0F op
  | .from12 => .illegalOp12To13 op
  | .from14 => .illegalOp14To17 op
  | .from18 => .illegalOp18To1F op
  | .from21 => .illegalOp21
  | .from22 => .illegalOp22To23 op
  | .from24 => .illegalOp24To27 op
  | .from28 => .illegalOp28To2F op
  | .from33 => .illegalOp33
  | .from34 => .illegalOp34To37 op
  | .from38 => .illegalOp38To3F op
  | .from40 => .illegalOp40To7F op
  | .from80 => .illegalOp80ToFF op

/-! ### Operands by format -/

/-- Format H0 (R104): no operand. -/
def formatH0 (i : Instr) (rest : List Byte) : Decoded := .ok (i, rest)

/-- Format H1 (R104): one byte. -/
def formatH1 (make : Byte → Instr) : List Byte → Decoded
  | a :: rest => .ok (make a, rest)
  | _ => .error .truncated

/-- Format H2 (R104): two big-endian u32. -/
def formatH2 (make : Word32 → Word32 → Instr) : List Byte → Decoded
  | s3 :: s2 :: s1 :: s0 :: u3 :: u2 :: u1 :: u0 :: rest =>
    .ok (make (be32 s3 s2 s1 s0) (be32 u3 u2 u1 u0), rest)
  | _ => .error .truncated

/-- Format H3 (R104): a command byte, a big-endian u16 length `n` and the `n` bytes that follow it. -/
def formatH3 (make : Byte → List Byte → Instr) : List Byte → Decoded
  | cmd :: nh :: nl :: rest =>
    if (be16 nh nl).toNat ≤ rest.length then
      .ok (make cmd (rest.take (be16 nh nl).toNat), rest.drop (be16 nh nl).toNat)
    else .error .truncated
  | _ => .error .truncated

/-- Format H4 (R104): one big-endian u32. -/
def formatH4 (make : Word32 → Instr) : List Byte → Decoded
  | i3 :: i2 :: i1 :: i0 :: rest => .ok (make (be32 i3 i2 i1 i0), rest)
  | _ => .error .truncated

/-- The operands of a host operation, by the format R105 gives its row. The bytes after an illegal opcode cannot be
delimited, so the decoder refuses them all (R136): none is left. -/
def hostOperands (op : Byte) (rest : List Byte) : HostRow → Decoded
  | .setSlave => formatH1 .setSlave rest
  | .setOwnAddr => formatH1 .setOwnAddr rest
  | .setRespTimeout => formatH2 .setRespTimeout rest
  | .setByteTimeout => formatH2 .setByteTimeout rest
  | .readReg => formatH1 .readReg rest
  | .crcInit => formatH0 .crcInit rest
  | .crcUpdate => formatH1 .crcUpdate rest
  | .txBuild => formatH3 .txBuild rest
  | .rxStart => formatH0 .rxStart rest
  | .rxRead => formatH4 .rxRead rest
  | .rxConfirm => formatH0 .rxConfirm rest
  | .illegal row => .ok (illegalInstr op row, [])

/-- The host operation port (R104, R105). -/
def decodeHost : List Byte → Decoded
  | [] => .error .empty
  | op :: rest =>
    match hostRow op with
    | some row => hostOperands op rest row
    | none => .error (.unlisted op)

/-! ### The event input -/

/-- The events of R106. -/
inductive EventRow where
  | rxByte | rxEof | rxError | tick | reset
deriving DecidableEq, Repr

/-- R106's table of codes. -/
def eventRow (code : Byte) : Option EventRow :=
  if code = 0x80 then some .rxByte
  else if code = 0x81 then some .rxEof
  else if code = 0x82 then some .rxError
  else if code = 0x83 then some .tick
  else if code = 0xFF then some .reset
  else none

/-- The operands of an event, by its layout in R106. -/
def eventOperands (rest : List Byte) : EventRow → Decoded
  | .rxByte => formatH1 .rxByte rest
  | .rxEof => formatH0 .rxEof rest
  | .rxError => formatH4 .rxError rest
  | .tick => formatH0 .tick rest
  | .reset => formatH0 .reset rest

/-- The event input (R106): another code is not an event and is refused here. -/
def decodeEvent : List Byte → Decoded
  | [] => .error .empty
  | code :: rest =>
    match eventRow code with
    | some row => eventOperands rest row
    | none => .error (.notAnEvent code)

/-- The decoder: each port by its own table. -/
def decode : Port → List Byte → Decoded
  | .host => decodeHost
  | .event => decodeEvent

/-! ### The encoder -/

/-- The port an input arrives on (spec/10_state.md R47). -/
def portOf : Instr → Port
  | .rxByte _ | .rxEof | .rxError _ | .tick | .reset => .event
  | .setSlave _ | .setOwnAddr _ | .setRespTimeout _ _ | .setByteTimeout _ _ | .readReg _ | .crcInit | .crcUpdate _
  | .txBuild _ _ | .rxStart | .rxRead _ | .rxConfirm
  | .illegalOp00 | .illegalOp06To07 _ | .illegalOp08To0F _ | .illegalOp12To13 _ | .illegalOp14To17 _
  | .illegalOp18To1F _ | .illegalOp21 | .illegalOp22To23 _ | .illegalOp24To27 _ | .illegalOp28To2F _ | .illegalOp33
  | .illegalOp34To37 _ | .illegalOp38To3F _ | .illegalOp40To7F _ | .illegalOp80ToFF _
  | .cmdSetColor _ | .cmdSetMode _ | .cmdOta _ | .cmdGetVersion _ | .cmdSetOutput _ | .cmdUnrecognized _ _
  | .cmdException _ _ => .host

/-- Format H3's bytes of `TX_BUILD` (R104, R105): the opcode, the command, the length and the payload. -/
def txBuildBytes (cmd : Byte) (data : List Byte) : List Byte := 0x20 :: cmd :: (lengthBytes data.length ++ data)

/-- The operation an input is. The names of the command codes are seven spellings of `TX_BUILD` (R96, R97, R99), which is
what the decoder answers for their bytes; every other input is its own. DESIGN CHOICE: see notes/assumptions/4.md. -/
def Instr.core : Instr → Instr
  | .cmdSetColor data => .txBuild 0x00 data
  | .cmdSetMode data => .txBuild 0x01 data
  | .cmdOta data => .txBuild 0x02 data
  | .cmdGetVersion data => .txBuild 0x03 data
  | .cmdSetOutput data => .txBuild 0x04 data
  | .cmdUnrecognized code data => .txBuild code data
  | .cmdException code data => .txBuild code data
  | .setSlave a => .setSlave a
  | .setOwnAddr a => .setOwnAddr a
  | .setRespTimeout sec usec => .setRespTimeout sec usec
  | .setByteTimeout sec usec => .setByteTimeout sec usec
  | .readReg r => .readReg r
  | .crcInit => .crcInit
  | .crcUpdate b => .crcUpdate b
  | .txBuild cmd data => .txBuild cmd data
  | .rxStart => .rxStart
  | .rxRead i => .rxRead i
  | .rxConfirm => .rxConfirm
  | .illegalOp00 => .illegalOp00
  | .illegalOp06To07 op => .illegalOp06To07 op
  | .illegalOp08To0F op => .illegalOp08To0F op
  | .illegalOp12To13 op => .illegalOp12To13 op
  | .illegalOp14To17 op => .illegalOp14To17 op
  | .illegalOp18To1F op => .illegalOp18To1F op
  | .illegalOp21 => .illegalOp21
  | .illegalOp22To23 op => .illegalOp22To23 op
  | .illegalOp24To27 op => .illegalOp24To27 op
  | .illegalOp28To2F op => .illegalOp28To2F op
  | .illegalOp33 => .illegalOp33
  | .illegalOp34To37 op => .illegalOp34To37 op
  | .illegalOp38To3F op => .illegalOp38To3F op
  | .illegalOp40To7F op => .illegalOp40To7F op
  | .illegalOp80ToFF op => .illegalOp80ToFF op
  | .rxByte b => .rxByte b
  | .rxEof => .rxEof
  | .rxError code => .rxError code
  | .tick => .tick
  | .reset => .reset

/-- The bytes of an input (R104 to R106). -/
def encode : Instr → List Byte
  | .setSlave a => [0x01, a]
  | .setOwnAddr a => [0x02, a]
  | .setRespTimeout sec usec => 0x03 :: (be32Bytes sec ++ be32Bytes usec)
  | .setByteTimeout sec usec => 0x04 :: (be32Bytes sec ++ be32Bytes usec)
  | .readReg r => [0x05, r]
  | .crcInit => [0x10]
  | .crcUpdate b => [0x11, b]
  | .txBuild cmd data => txBuildBytes cmd data
  | .rxStart => [0x30]
  | .rxRead i => 0x31 :: be32Bytes i
  | .rxConfirm => [0x32]
  | .illegalOp00 => [0x00]
  | .illegalOp06To07 op => [op]
  | .illegalOp08To0F op => [op]
  | .illegalOp12To13 op => [op]
  | .illegalOp14To17 op => [op]
  | .illegalOp18To1F op => [op]
  | .illegalOp21 => [0x21]
  | .illegalOp22To23 op => [op]
  | .illegalOp24To27 op => [op]
  | .illegalOp28To2F op => [op]
  | .illegalOp33 => [0x33]
  | .illegalOp34To37 op => [op]
  | .illegalOp38To3F op => [op]
  | .illegalOp40To7F op => [op]
  | .illegalOp80ToFF op => [op]
  | .rxByte b => [0x80, b]
  | .rxEof => [0x81]
  | .rxError code => 0x82 :: be32Bytes code
  | .tick => [0x83]
  | .reset => [0xFF]
  | .cmdSetColor data => txBuildBytes 0x00 data
  | .cmdSetMode data => txBuildBytes 0x01 data
  | .cmdOta data => txBuildBytes 0x02 data
  | .cmdGetVersion data => txBuildBytes 0x03 data
  | .cmdSetOutput data => txBuildBytes 0x04 data
  | .cmdUnrecognized code data => txBuildBytes code data
  | .cmdException code data => txBuildBytes code data

/-! ### Words as spec/opcode_table.json numbers their bits -/

/-- The port an unlabelled first byte is taken on: the event input where R106 lists its code, else the host operation
port. DESIGN CHOICE: see notes/assumptions/5.md. -/
def tablePort (first : Byte) : Port := if (eventRow first).isSome then .event else .host

/-- Byte `k` of a word whose bit 0 is the least significant bit of its first byte; bits from `nbits` on are 0. -/
def tableByte (nbits w k : Nat) : Byte := BitVec.ofNat 8 ((w % 2 ^ nbits) / 2 ^ (8 * k))

/-- How many bytes an operation has (R104: "a decoder knows the length from the opcode, and for H3 from n"). -/
def inputLength (nbits w : Nat) : Nat :=
  match tablePort (tableByte nbits w 0) with
  | .event =>
    match eventRow (tableByte nbits w 0) with
    | some .rxByte => 2
    | some .rxError => 5
    | _ => 1
  | .host =>
    match hostRow (tableByte nbits w 0) with
    | some .setSlave | some .setOwnAddr | some .readReg | some .crcUpdate => 2
    | some .setRespTimeout | some .setByteTimeout => 9
    | some .txBuild => 4 + (be16 (tableByte nbits w 2) (tableByte nbits w 3)).toNat
    | some .rxRead => 5
    | _ => 1

/-- The bytes of the word, as many as its operation has. -/
def tableBytes (nbits w : Nat) : List Byte := (List.range (inputLength nbits w)).map (tableByte nbits w)

/-- The instruction the decoder reads from a word of spec/opcode_table.json. -/
def decodeTableWord (nbits w : Nat) : Option Instr :=
  match decode (tablePort (tableByte nbits w 0)) (tableBytes nbits w) with
  | .ok (i, _) => some i
  | .error _ => none

end Sys2Proof
end

