-- ==== Sys2Proof/Machine/Memory.lean ====
section
/-! DEFINITION. The receive buffer as the block's one memory (spec/20_memory.md R70): a list of cells (offset, byte), the
offsets strictly rising. An unlisted offset reads as `⊥`, no value (spec/10_state.md R42). -/

namespace Sys2Proof.Machine

/-- R75: one byte of the buffer; `none` is `⊥`. -/
def Memory.read : List Host.Cell → Nat → Option Byte
  | [], _ => none
  | (k, b) :: m, a => if k = a then some b else Memory.read m a

/-- R75: writing one byte. The written value is never `⊥`, so no entry is removed. -/
def Memory.write : List Host.Cell → Nat → Byte → List Host.Cell
  | [], a, b => [(a, b)]
  | (k, c) :: m, a, b =>
    if a < k then (a, b) :: (k, c) :: m
    else if a = k then (a, b) :: m
    else (k, c) :: Memory.write m a b

/-- R71: every cell `⊥`. -/
def Memory.cleared : List Host.Cell := []

/-- The canonical form: the offsets strictly rise. No entry reads as an unlisted offset does, since an entry has a byte. -/
abbrev Memory.wf (m : List Host.Cell) : Prop := m.Pairwise (fun x y => x.1 < y.1)

/-- The `n` bytes from offset `a` on (R7's `l[i..j)`), if each of them holds a value. -/
def Memory.readRange (m : List Host.Cell) (a : Nat) : Nat → Option (List Byte)
  | 0 => some []
  | n + 1 =>
    match Memory.read m a, Memory.readRange m (a + 1) n with
    | some b, some l => some (b :: l)
    | _, _ => none

end Sys2Proof.Machine
end

