-- ==== Sys2Proof/Machine/Parameters.lean ====
section
/-! DEFINITION. The constants of the frame layout (spec/00_scope.md R6) and the decided parameters (R5, decisions D2 and
D4 of spec/92_eei_decisions.md). -/

namespace Sys2Proof.Machine

/-- R6: `HDR_LEN`. -/
abbrev hdrLen : Nat := 15

/-- R6: `TRL_LEN`. -/
abbrev trlLen : Nat := 2

/-- R6: `MIN_FRAME`. -/
abbrev minFrame : Nat := 17

/-- R6: `DATA_OFF`. -/
abbrev dataOff : Nat := 15

/-- R73: the two orders the checksum's bytes may be sent in. -/
inductive WireOrder where
  | lowFirst
  | highFirst
deriving DecidableEq, Repr

/-- The parameters of a CRC-16 (R5, R150, R151). -/
structure CrcParams where
  /-- `CRC_POLY`, the reflected polynomial. -/
  poly : Word16
  /-- `CRC_INIT`. -/
  init : Word16
  /-- `CRC_XOROUT`. -/
  xorOut : Word16
deriving DecidableEq, Repr

/-- R5: the decided values of CRC-16/MODBUS (D2). The spec itself takes them from general knowledge. -/
def crcParams : CrcParams := ⟨0xA001, 0xFFFF, 0x0000⟩

/-- R5: the decided `CRC_WIRE_ORDER` (D4). The spec itself takes it from general knowledge. -/
def crcWireOrder : WireOrder := .lowFirst

/-- R8: `timeout_us(sec, usec) = sec * 1000000 + usec`, a u64 (the literal stands first: the kernel never unrolls it). -/
def timeoutTicks (sec usec : Word32) : Word64 := BitVec.ofNat 64 (1000000 * sec.toNat + usec.toNat)

end Sys2Proof.Machine
end

