-- ==== Sys2Proof/Machine/Status.lean ====
section
/-! DEFINITION. The status codes (spec/30_encoding.md R111), the receive controller's states (spec/10_state.md R39) and
what a host operation returns (spec/00_scope.md R11). -/

namespace Sys2Proof.Machine

/-- R111's closed enumeration, less the device exception codes, which are never produced. -/
inductive Status where
  | ok | excNack | badCrc | badData | badException | tooMuchData | badSlave | timeout | connReset | transportError
  | invalidArg | busy | notReady | illegalOp
  /-- Held in `RX_STATUS` only, never returned. -/
  | none
deriving DecidableEq, Repr

/-- R111: the code of a status. -/
def Status.code : Status → Byte
  | .ok => 0x00
  | .excNack => 0x07
  | .badCrc => 0x10
  | .badData => 0x11
  | .badException => 0x12
  | .tooMuchData => 0x13
  | .badSlave => 0x14
  | .timeout => 0x20
  | .connReset => 0x21
  | .transportError => 0x22
  | .invalidArg => 0x30
  | .busy => 0x31
  | .notReady => 0x32
  | .illegalOp => 0x33
  | .none => 0xFF

/-- R39: the values of `RX_STATE`. -/
inductive RxState where
  | idle | header | payload | done | error
deriving DecidableEq, Repr

/-- R39: the 3-bit code of a state. -/
def RxState.code : RxState → BitVec 3
  | .idle => 0
  | .header => 1
  | .payload => 2
  | .done => 3
  | .error => 4

/-- R39: the block is busy exactly in `HEADER` and `PAYLOAD`. -/
def RxState.receiving : RxState → Bool
  | .header => true
  | .payload => true
  | .idle => false
  | .done => false
  | .error => false

/-- The value a host operation returns beside its status (R11). -/
inductive Value where
  /-- R9's "no value". -/
  | none
  /-- A u64: `READ_REG` (R135), `RX_CONFIRM` (R237). -/
  | word (v : Word64)
  /-- A byte: `RX_READ` (R204). -/
  | byte (b : Byte)
  /-- A frame in transmission order: `TX_BUILD` (R175). -/
  | frame (bytes : List Byte)
deriving DecidableEq, Repr

/-- R11, R47: the operation result. -/
structure OpResult where
  status : Status
  value : Value
deriving DecidableEq, Repr

end Sys2Proof.Machine
end

