-- ==== Sys2Proof/Machine/State.lean ====
section
/-! DEFINITION. The state of the block (spec/10_state.md R30), what its environment holds for it, the reasons a step stops
and the state after reset (spec/70_reset_and_hazards.md R270). -/

namespace Sys2Proof.Machine

/-- Bytes the environment presents on a port (spec/10_state.md R47). -/
structure Input where
  port : Port
  bytes : List Byte
deriving DecidableEq, Repr

/-- The machine. The fields down to `reqCmd` are R30's, exactly; the last three are the model's own. -/
structure State where
  /-- `SLAVE` (R33). -/
  slave : Byte
  /-- `SLAVE_VALID` (R33). -/
  slaveValid : Bool
  /-- `OWN_ADDR` (R34). -/
  ownAddr : Byte
  /-- `SEQ` (R35). -/
  seq : Word16
  /-- `RESP_TO_SEC` (R36). -/
  respToSec : Word32
  /-- `RESP_TO_USEC` (R36). -/
  respToUsec : Word32
  /-- `BYTE_TO_SEC` (R37). -/
  byteToSec : Word32
  /-- `BYTE_TO_USEC` (R37). -/
  byteToUsec : Word32
  /-- `CRC` (R38). -/
  crc : Word16
  /-- `RX_STATE` (R39). -/
  rxState : RxState
  /-- `RX_STATUS` (R40). -/
  rxStatus : Status
  /-- `RX_ERRCODE` (R41). -/
  rxErrcode : Word32
  /-- `RX_BUF` (R42): the cells that hold a byte. -/
  rxBuf : List Host.Cell
  /-- `RX_LEN` (R43). -/
  rxLen : Word32
  /-- `RX_REMAINING` (R44). -/
  rxRemaining : Word32
  /-- `TIMER` (R45). -/
  timer : Word64
  /-- `REQ_VALID` (R46). -/
  reqValid : Bool
  /-- `REQ_DST` (R46). -/
  reqDst : Byte
  /-- `REQ_SRC` (R46). -/
  reqSrc : Byte
  /-- `REQ_SEQ` (R46). -/
  reqSeq : Word16
  /-- `REQ_CMD` (R46). -/
  reqCmd : Byte
  /-- The OPEN parameters of spec/00_scope.md R5 the machine is built with; no step writes them. The model's own field:
  notes/assumptions/1.md. -/
  params : Params
  /-- The operation result and transmit frame outputs of R47: what the last step returned, `none` where it returned
  nothing (an event, R11). The model's own field: notes/assumptions/3.md. -/
  result : Option OpResult
  /-- What the environment presents on the input ports of R47 and the block has not taken yet, in the order the
  environment chooses (spec/00_scope.md R10). The model's own field: notes/assumptions/2.md. -/
  inputs : List Input
deriving DecidableEq, Repr

/-- Why a step stops with a fault. Each stands where a rule has a guard that holds in every reachable state (spec/10_state.md
R51), so no reachable state raises one. -/
inductive Fault where
  /-- Raised by `RX_BYTE` where `RX_LEN` is at or past `MAX_FRAME_LEN`: the buffer has no such offset (R42, R70). Safe. -/
  | noSuchOffset
  /-- Raised by `RX_BYTE`, `RX_READ` and `RX_CONFIRM` where the byte they read is `⊥` (R9: "no rule reads one"). Safe. -/
  | noValue
  /-- Raised by `RX_BYTE` where `RX_REMAINING` is 0 and by `TICK` where `TIMER` is 0 while busy (R8: every subtraction is
  guarded). Safe. -/
  | belowZero
deriving DecidableEq, Repr

/-- Why a step refuses. -/
inductive Refusal where
  /-- Raised by an arm of `exec` for an instruction without a meaning; no arm is left so. Safe. -/
  | notModelled (mnemonic : String)
  /-- Raised by the step where the presented bytes are no input: R106 has the model refuse a code that is no event at
  its decoder, and a byte string that ends inside an operation is no operation (R104). Safe. -/
  | undecodable (reason : DecodeError)
deriving DecidableEq, Repr

/-- R270: every field at its reset value, for a machine built with the parameters `p`. -/
def State.resetOf (p : Params) : State where
  slave := 0x00
  slaveValid := false
  ownAddr := p.ownAddrReset
  seq := 0x0000
  respToSec := p.respToReset.sec
  respToUsec := p.respToReset.usec
  byteToSec := p.byteToReset.sec
  byteToUsec := p.byteToReset.usec
  crc := crcParams.init
  rxState := .idle
  rxStatus := .none
  rxErrcode := 0
  rxBuf := Memory.cleared
  rxLen := 0
  rxRemaining := 0
  timer := 0
  reqValid := false
  reqDst := 0
  reqSrc := 0
  reqSeq := 0
  reqCmd := 0
  params := p
  result := none
  inputs := []

/-- The machine right after reset. -/
def State.reset : State := State.resetOf Config.params

end Sys2Proof.Machine
end

