-- ==== Sys2Proof/Machine/Flags.lean ====
section
/-! DEFINITION. The block has no status flags or condition codes (spec/10_state.md R48). What stands in their place are the
conditions its rules test, computed from the state here. -/

namespace Sys2Proof.Machine

/-- R39: the block is busy exactly when `RX_STATE` is `HEADER` or `PAYLOAD`. -/
def State.busy (s : State) : Bool := s.rxState.receiving

/-- R47, R193: the output `rx_accept`. -/
def State.rxAccept (s : State) : Bool := s.busy

/-- R47, R175: the transmit frame output: the frame a successful `TX_BUILD` returned in this step. -/
def State.txFrame (s : State) : Option (List Byte) :=
  match s.result with
  | some ⟨.ok, .frame f⟩ => some f
  | _ => none

/-- R46: the header fields of the last request built, as the confirmation check reads them. -/
structure Request where
  dst : Byte
  src : Byte
  seq : Word16
  cmd : Byte
deriving DecidableEq, Repr

/-- R237: `req`. -/
def State.request (s : State) : Request := ⟨s.reqDst, s.reqSrc, s.reqSeq, s.reqCmd⟩

end Sys2Proof.Machine
end

