-- ==== Sys2Proof/Machine/Ops.lean ====
section
/-! DEFINITION. The operations several inputs share: what a host operation returns, the entry into an error and the return
from one (spec/60_exceptions.md R255, R256), the timer and the receive buffer. -/

namespace Sys2Proof.Machine

/-- R9: `raise E`: the status and no value are returned, and every state field is left as it was. This is a host
operation's entry into an error (R255). -/
def raise (e : Status) (s : State) : State := { s with result := some ⟨e, .none⟩ }

/-- R9: `return (OK, v)`. -/
def answerWith (v : Value) (s : State) : State := { s with result := some ⟨.ok, v⟩ }

/-- R9: `return (OK, none)`. -/
def answer (s : State) : State := answerWith .none s

/-- R11: an environment event returns nothing to the host. -/
def silent (s : State) : State := { s with result := none }

/-- R194: `finish(E)`: a reception ends with the status `E`. This is a reception's entry into an error where `E` is not
`OK` (R255). -/
def finish (e : Status) (s : State) : State :=
  { s with rxStatus := e, rxState := if e = .ok then .done else .error }

/-- R191: `T_resp`. -/
def respTicks (s : State) : Word64 := timeoutTicks s.respToSec s.respToUsec

/-- R191: `T_byte`. -/
def byteTicks (s : State) : Word64 := timeoutTicks s.byteToSec s.byteToUsec

/-- R192: `rearm(S)`. -/
def rearm (s : State) : State :=
  { s with timer := if byteTicks s = 0 then s.timer else byteTicks s }

/-- R195: what `RX_START` does once it is not refused: a reception starts. It is the return from `ERROR` and `DONE`
(R256). -/
def startReception (s : State) : State :=
  { s with
    rxBuf := Memory.cleared
    rxLen := 0
    rxRemaining := BitVec.ofNat 32 hdrLen
    timer := respTicks s
    rxStatus := .none
    rxErrcode := 0
    rxState := .header }

/-- R196, R198: the byte goes to offset `RX_LEN`, which advances, and one byte fewer remains. -/
def storeByte (b : Byte) (s : State) : Except Fault State :=
  if s.params.maxFrameLen ≤ s.rxLen.toNat then .error .noSuchOffset
  else if s.rxRemaining = 0 then .error .belowZero
  else .ok
    { s with
      rxBuf := Memory.write s.rxBuf s.rxLen.toNat b
      rxLen := s.rxLen + 1
      rxRemaining := s.rxRemaining - 1 }

/-- R91, R108: the data length `N` of the frame in the buffer, big-endian at offsets 13 and 14. -/
def dataLength (m : List Host.Cell) : Option Word16 :=
  match Memory.read m 13, Memory.read m 14 with
  | some h, some l => some (be16 h l)
  | _, _ => none

/-- What a meaning that has a guard answers. -/
def outcome : Except Fault State → Host.Outcome State Fault Refusal
  | .ok s => .next s
  | .error f => .fault f

end Sys2Proof.Machine
end

