-- ==== Sys2Proof/Machine/Crc.lean ====
section
/-! DEFINITION. The CRC-16 function and the stand-alone CRC generator (spec/41_crc.md). -/

namespace Sys2Proof.Machine

/-- R150: one of the eight shifts of `crc_step`. -/
def crcShift (poly x : Word16) : Word16 := if x.getLsbD 0 then (x >>> 1) ^^^ poly else x >>> 1

/-- R150: "repeat n times". -/
def crcShifts (poly : Word16) : Nat → Word16 → Word16
  | 0, x => x
  | n + 1, x => crcShifts poly n (crcShift poly x)

/-- R150: `crc_step(c, b)` for any parameters. -/
def crcStepWith (p : CrcParams) (c : Word16) (b : Byte) : Word16 := crcShifts p.poly 8 (c ^^^ b.setWidth 16)

/-- R151: `crc16(l)` for any parameters. -/
def crc16With (p : CrcParams) (l : List Byte) : Word16 := l.foldl (crcStepWith p) p.init ^^^ p.xorOut

/-- R150 with the decided parameters. -/
def crcStep (c : Word16) (b : Byte) : Word16 := crcStepWith crcParams c b

/-- R151 with the decided parameters. -/
def crc16 (l : List Byte) : Word16 := crc16With crcParams l

/-- `CRC_INIT` (R153): never refused. -/
def execCrcInit (s : State) : Host.Outcome State Fault Refusal :=
  .next (answer { s with crc := crcParams.init })

/-- `CRC_UPDATE b` (R154): never refused. -/
def execCrcUpdate (b : Byte) (s : State) : Host.Outcome State Fault Refusal :=
  .next (answer { s with crc := crcStep s.crc b })

end Sys2Proof.Machine
end

