-- ==== Sys2Proof/Machine/Encoder.lean ====
section
/-! DEFINITION. The frame encoder (spec/42_frame_encoder.md). -/

namespace Sys2Proof.Machine

/-- R170: `compute_response_length(cmd)`; `none` is the value `UNDEF`. -/
def computeResponseLength (cmd : Byte) : Option Nat := if cmd = 0x03 then none else some minFrame

/-- R91, R171: header and payload of a frame, each field at its offset: preamble, destination, source, sequence number,
command, data length, payload. -/
def frameBytes (preamble : Vector Byte 8) (dst src : Byte) (seq : Word16) (cmd : Byte) (data : List Byte) : List Byte :=
  preamble.toList ++ [dst, src] ++ be16Bytes seq ++ [cmd] ++ lengthBytes data.length ++ data

/-- R171: `build_frame_body(S, cmd, data)`. -/
def buildFrameBody (s : State) (cmd : Byte) (data : List Byte) : List Byte :=
  frameBytes s.params.preamble s.slave s.ownAddr s.seq cmd data

/-- R73: the two checksum bytes in the order they are sent. -/
def trailer (order : WireOrder) (c : Word16) : List Byte :=
  match order with
  | .lowFirst => [lo8 c, hi8 c]
  | .highFirst => [hi8 c, lo8 c]

/-- R172: `finalize(body)` for any order of the checksum bytes. -/
def finalizeWith (order : WireOrder) (body : List Byte) : List Byte := body ++ trailer order (crc16 body)

/-- R172 with the decided `CRC_WIRE_ORDER`. -/
def finalize (body : List Byte) : List Byte := finalizeWith crcWireOrder body

/-- R173: the frame of a request. -/
def requestFrame (s : State) (cmd : Byte) (data : List Byte) : List Byte := finalize (buildFrameBody s cmd data)

/-- R173, R174: `TX_BUILD` with the command code `cmd` and the payload `data`. -/
def buildRequest (cmd : Byte) (data : List Byte) (s : State) : State :=
  if s.busy then raise .busy s
  else if s.params.maxFrameLen - minFrame < data.length then raise .tooMuchData s
  else if s.slaveValid = false then raise .invalidArg s
  else
    answerWith (.frame (requestFrame s cmd data))
      { s with
        reqValid := true
        reqDst := s.slave
        reqSrc := s.ownAddr
        reqSeq := s.seq
        reqCmd := cmd
        seq := s.seq + 1 }

/-- `TX_BUILD cmd, data` (R173). -/
def execTxBuild (cmd : Byte) (data : List Byte) (s : State) : Host.Outcome State Fault Refusal :=
  .next (buildRequest cmd data s)

end Sys2Proof.Machine
end

