-- ==== Sys2Proof/Machine/Commands.lean ====
section
/-! DEFINITION. The command codes of a frame (spec/30_encoding.md R96 to R99), each as the `TX_BUILD` operation that
carries it: a command code is no input of its own (spec/10_state.md R47), and only `TX_BUILD` sends one. What a code means
in a response is the confirmation check's (spec/44_confirmation.md R232 to R234). DESIGN CHOICE: notes/assumptions/4.md. -/

namespace Sys2Proof.Machine

/-- `TX_BUILD` of a set-color request (R96: code 0x00). -/
def execCmdSetColor (data : List Byte) (s : State) : Host.Outcome State Fault Refusal :=
  .next (buildRequest 0x00 data s)

/-- `TX_BUILD` of a set-mode request (R96: code 0x01). -/
def execCmdSetMode (data : List Byte) (s : State) : Host.Outcome State Fault Refusal :=
  .next (buildRequest 0x01 data s)

/-- `TX_BUILD` of an over-the-air update request (R96: code 0x02). -/
def execCmdOta (data : List Byte) (s : State) : Host.Outcome State Fault Refusal :=
  .next (buildRequest 0x02 data s)

/-- `TX_BUILD` of a get-version request (R96: code 0x03). -/
def execCmdGetVersion (data : List Byte) (s : State) : Host.Outcome State Fault Refusal :=
  .next (buildRequest 0x03 data s)

/-- `TX_BUILD` of a set-output request (R96: code 0x04). -/
def execCmdSetOutput (data : List Byte) (s : State) : Host.Outcome State Fault Refusal :=
  .next (buildRequest 0x04 data s)

/-- `TX_BUILD` of a request with an unnamed code (R97): "the block builds them like any other". -/
def execCmdUnrecognized (code : Byte) (data : List Byte) (s : State) : Host.Outcome State Fault Refusal :=
  .next (buildRequest code data s)

/-- `TX_BUILD` of a request whose code has bit 7 set (R99): legal, and built like any other. -/
def execCmdException (code : Byte) (data : List Byte) (s : State) : Host.Outcome State Fault Refusal :=
  .next (buildRequest code data s)

end Sys2Proof.Machine
end

