-- ==== Sys2Proof/Machine/Configuration.lean ====
section
/-! DEFINITION. The configuration operations and the register read (spec/40_config.md). -/

namespace Sys2Proof.Machine

/-- `SET_SLAVE a` (R131). -/
def execSetSlave (a : Byte) (s : State) : Host.Outcome State Fault Refusal :=
  .next (if s.busy then raise .busy s else answer { s with slave := a, slaveValid := true })

/-- `SET_OWN_ADDR a` (R132). -/
def execSetOwnAddr (a : Byte) (s : State) : Host.Outcome State Fault Refusal :=
  .next (if s.busy then raise .busy s else answer { s with ownAddr := a })

/-- `SET_RESP_TIMEOUT sec, usec` (R133). -/
def execSetRespTimeout (sec usec : Word32) (s : State) : Host.Outcome State Fault Refusal :=
  .next
    (if s.busy then raise .busy s
     else if 1000000 ≤ usec.toNat then raise .invalidArg s
     else if sec = 0 ∧ usec = 0 then raise .invalidArg s
     else answer { s with respToSec := sec, respToUsec := usec })

/-- `SET_BYTE_TIMEOUT sec, usec` (R134). -/
def execSetByteTimeout (sec usec : Word32) (s : State) : Host.Outcome State Fault Refusal :=
  .next
    (if s.busy then raise .busy s
     else if 1000000 ≤ usec.toNat then raise .invalidArg s
     else answer { s with byteToSec := sec, byteToUsec := usec })

/-- The registers of spec/10_state.md R50. -/
inductive Register where
  | slave | ownAddr | seq | respToSec | respToUsec | byteToSec | byteToUsec | crc | rxState | rxStatus | rxErrcode | rxLen
  | rxRemaining | timer | reqValid | reqDst | reqSrc | reqSeq | reqCmd
deriving DecidableEq, Repr

/-- R50: the register of a number; 0x13 to 0xFF are unassigned. -/
def registerOf (r : Byte) : Option Register :=
  match r.toNat with
  | 0x00 => some .slave
  | 0x01 => some .ownAddr
  | 0x02 => some .seq
  | 0x03 => some .respToSec
  | 0x04 => some .respToUsec
  | 0x05 => some .byteToSec
  | 0x06 => some .byteToUsec
  | 0x07 => some .crc
  | 0x08 => some .rxState
  | 0x09 => some .rxStatus
  | 0x0A => some .rxErrcode
  | 0x0B => some .rxLen
  | 0x0C => some .rxRemaining
  | 0x0D => some .timer
  | 0x0E => some .reqValid
  | 0x0F => some .reqDst
  | 0x10 => some .reqSrc
  | 0x11 => some .reqSeq
  | 0x12 => some .reqCmd
  | _ => none

/-- R50: `SLAVE_VALID` in bit 8 and `SLAVE` in bits 7:0. -/
def slaveRegister (s : State) : Word64 :=
  ((BitVec.ofBool s.slaveValid) ++ s.slave).setWidth 64

/-- R50: the value of a register, zero-extended to u64; `CRC` reads as `CRC xor CRC_XOROUT` (R155). -/
def registerValue (s : State) : Register → Word64
  | .slave => slaveRegister s
  | .ownAddr => s.ownAddr.setWidth 64
  | .seq => s.seq.setWidth 64
  | .respToSec => s.respToSec.setWidth 64
  | .respToUsec => s.respToUsec.setWidth 64
  | .byteToSec => s.byteToSec.setWidth 64
  | .byteToUsec => s.byteToUsec.setWidth 64
  | .crc => (s.crc ^^^ crcParams.xorOut).setWidth 64
  | .rxState => s.rxState.code.setWidth 64
  | .rxStatus => s.rxStatus.code.setWidth 64
  | .rxErrcode => s.rxErrcode.setWidth 64
  | .rxLen => s.rxLen.setWidth 64
  | .rxRemaining => s.rxRemaining.setWidth 64
  | .timer => s.timer
  | .reqValid => (BitVec.ofBool s.reqValid).setWidth 64
  | .reqDst => s.reqDst.setWidth 64
  | .reqSrc => s.reqSrc.setWidth 64
  | .reqSeq => s.reqSeq.setWidth 64
  | .reqCmd => s.reqCmd.setWidth 64

/-- `READ_REG r` (R135): never refused with `BUSY`. -/
def execReadReg (r : Byte) (s : State) : Host.Outcome State Fault Refusal :=
  .next
    (match registerOf r with
     | none => raise .invalidArg s
     | some reg => answerWith (.word (registerValue s reg)) s)

end Sys2Proof.Machine
end

