-- ==== Sys2Proof/Machine/Confirm.lean ====
section
/-! DEFINITION. The frame decoder and the confirmation check (spec/44_confirmation.md). -/

namespace Sys2Proof.Machine

/-- The header fields of a received frame that the check reads (spec/30_encoding.md R108). -/
structure FrameHeader where
  dst : Byte
  src : Byte
  seq : Word16
  cmd : Byte
  dataLen : Word16
deriving DecidableEq, Repr

/-- R108: destination `f[8]`, source `f[9]`, sequence `be16(f[10], f[11])`, command `f[12]`, data length
`be16(f[13], f[14])`. -/
def headerOf : List Byte → Option FrameHeader
  | [f8, f9, f10, f11, f12, f13, f14] => some ⟨f8, f9, be16 f10 f11, f12, be16 f13 f14⟩
  | _ => none

/-- R108 on the receive buffer: the seven bytes from offset 8 on, below `RX_LEN` (R42). -/
def receivedHeader (s : State) : Option FrameHeader :=
  if s.rxLen.toNat < hdrLen then none else (Memory.readRange s.rxBuf 8 7).bind headerOf

/-- R231: `precheck(req, f)`. -/
def precheck (req : Request) (f : FrameHeader) : Bool := f.src == req.dst && f.dst == req.src

/-- R230 to R236: `classify(req, f)` for a frame of length `len`: the payload's offset and length, or the status of the
first check that fails. -/
def classify (req : Request) (f : FrameHeader) (len : Nat) : Except Status (Nat × Word16) :=
  if precheck req f = false then .error .badSlave
  else if highBit f.cmd then
    if len = minFrame ∧ f.cmd = exceptionOf req.cmd then .error .excNack else .error .badException
  else if computeResponseLength req.cmd ≠ none ∧ computeResponseLength req.cmd ≠ some len then .error .badData
  else if f.cmd ≠ req.cmd then .error .badData
  else if f.seq ≠ req.seq then .error .badData
  else .ok (dataOff, f.dataLen)

/-- R237: what `RX_CONFIRM` returns for a classification. -/
def confirmResult (s : State) : Except Status (Nat × Word16) → State
  | .ok (off, n) => answerWith (.word (packLocation off n)) s
  | .error e => raise e s

/-- `RX_CONFIRM` (R237): never refused with `BUSY`; writes no state (R238). -/
def execRxConfirm (s : State) : Host.Outcome State Fault Refusal :=
  if s.rxState ≠ .done then .next (raise .notReady s)
  else if s.reqValid = false then .next (raise .notReady s)
  else
    match receivedHeader s with
    | none => .fault .noValue
    | some f => .next (confirmResult s (classify s.request f s.rxLen.toNat))

end Sys2Proof.Machine
end

