-- ==== Sys2Proof/Machine/Illegal.lean ====
section
/-! DEFINITION. The illegal opcodes (spec/40_config.md R136): each returns `ILLEGAL_OP` and changes no state. -/

namespace Sys2Proof.Machine

/-- The illegal opcode 0x00 (R136). -/
def execIllegalOp00 (s : State) : Host.Outcome State Fault Refusal := .next (raise .illegalOp s)

/-- An illegal opcode of 0x06 to 0x07 (R136), whichever it is. -/
def execIllegalOp06To07 (_op : Byte) (s : State) : Host.Outcome State Fault Refusal := .next (raise .illegalOp s)

/-- An illegal opcode of 0x08 to 0x0F (R136), whichever it is. -/
def execIllegalOp08To0F (_op : Byte) (s : State) : Host.Outcome State Fault Refusal := .next (raise .illegalOp s)

/-- An illegal opcode of 0x12 to 0x13 (R136), whichever it is. -/
def execIllegalOp12To13 (_op : Byte) (s : State) : Host.Outcome State Fault Refusal := .next (raise .illegalOp s)

/-- An illegal opcode of 0x14 to 0x17 (R136), whichever it is. -/
def execIllegalOp14To17 (_op : Byte) (s : State) : Host.Outcome State Fault Refusal := .next (raise .illegalOp s)

/-- An illegal opcode of 0x18 to 0x1F (R136), whichever it is. -/
def execIllegalOp18To1F (_op : Byte) (s : State) : Host.Outcome State Fault Refusal := .next (raise .illegalOp s)

/-- The illegal opcode 0x21 (R136). -/
def execIllegalOp21 (s : State) : Host.Outcome State Fault Refusal := .next (raise .illegalOp s)

/-- An illegal opcode of 0x22 to 0x23 (R136), whichever it is. -/
def execIllegalOp22To23 (_op : Byte) (s : State) : Host.Outcome State Fault Refusal := .next (raise .illegalOp s)

/-- An illegal opcode of 0x24 to 0x27 (R136), whichever it is. -/
def execIllegalOp24To27 (_op : Byte) (s : State) : Host.Outcome State Fault Refusal := .next (raise .illegalOp s)

/-- An illegal opcode of 0x28 to 0x2F (R136), whichever it is. -/
def execIllegalOp28To2F (_op : Byte) (s : State) : Host.Outcome State Fault Refusal := .next (raise .illegalOp s)

/-- The illegal opcode 0x33 (R136). -/
def execIllegalOp33 (s : State) : Host.Outcome State Fault Refusal := .next (raise .illegalOp s)

/-- An illegal opcode of 0x34 to 0x37 (R136), whichever it is. -/
def execIllegalOp34To37 (_op : Byte) (s : State) : Host.Outcome State Fault Refusal := .next (raise .illegalOp s)

/-- An illegal opcode of 0x38 to 0x3F (R136), whichever it is. -/
def execIllegalOp38To3F (_op : Byte) (s : State) : Host.Outcome State Fault Refusal := .next (raise .illegalOp s)

/-- An illegal opcode of 0x40 to 0x7F (R136), whichever it is. -/
def execIllegalOp40To7F (_op : Byte) (s : State) : Host.Outcome State Fault Refusal := .next (raise .illegalOp s)

/-- An illegal opcode of 0x80 to 0xFF (R136), whichever it is. -/
def execIllegalOp80ToFF (_op : Byte) (s : State) : Host.Outcome State Fault Refusal := .next (raise .illegalOp s)

end Sys2Proof.Machine
end

