-- ==== Sys2Proof/Machine/Receive.lean ====
section
/-! DEFINITION. The receive controller (spec/43_receive_controller.md). -/

namespace Sys2Proof.Machine

/-- R199: `integrity_ok(f)` for any order of the checksum bytes: the last two bytes are the trailer of those before. -/
def integrityOkWith (order : WireOrder) (f : List Byte) : Bool :=
  f.drop (f.length - trlLen) == trailer order (crc16 (f.take (f.length - trlLen)))

/-- R199 with the decided `CRC_WIRE_ORDER`. -/
def integrityOk (f : List Byte) : Bool := integrityOkWith crcWireOrder f

/-- `RX_START` (R195). -/
def execRxStart (s : State) : Host.Outcome State Fault Refusal :=
  .next (if s.busy then raise .busy s else answer (startReception s))

/-- R197: `header_complete(S)`. -/
def headerComplete (s : State) : Except Fault State :=
  match dataLength s.rxBuf with
  | none => .error .noValue
  | some n =>
    if s.params.maxFrameLen < minFrame + n.toNat then .ok (finish .badData s)
    else .ok (rearm { s with rxRemaining := BitVec.ofNat 32 (n.toNat + trlLen), rxState := .payload })

/-- R196: a byte arrives in `HEADER`. -/
def headerByte (b : Byte) (s : State) : Except Fault State :=
  match storeByte b s with
  | .error f => .error f
  | .ok s' => if s'.rxRemaining = 0 then headerComplete s' else .ok s'

/-- R198, R199: the last byte of a frame has been stored. -/
def frameComplete (s : State) : Except Fault State :=
  match Memory.readRange s.rxBuf 0 s.rxLen.toNat with
  | none => .error .noValue
  | some f => .ok (finish (if integrityOk f then .ok else .badCrc) s)

/-- R198: a byte arrives in `PAYLOAD`. -/
def payloadByte (b : Byte) (s : State) : Except Fault State :=
  match storeByte b s with
  | .error f => .error f
  | .ok s' => if s'.rxRemaining = 0 then frameComplete s' else .ok (rearm s')

/-- R190: what an accepted byte does, by the state it finds. -/
def receiveByte (b : Byte) (s : State) : Except Fault State :=
  match s.rxState with
  | .header => headerByte b s
  | .payload => payloadByte b s
  | .idle | .done | .error => .ok s

/-- R200: one tick of the wait a reception is in. -/
def countTick (s : State) : Except Fault State :=
  if s.timer = 0 then .error .belowZero
  else if s.timer = 1 then .ok (finish .timeout { s with timer := 0 })
  else .ok { s with timer := s.timer - 1 }

/-- `@RX_BYTE b` (R196, R198); while the block is not busy it is not accepted and takes no step (R193). -/
def execRxByte (b : Byte) (s : State) : Host.Outcome State Fault Refusal :=
  if s.rxAccept then outcome ((receiveByte b s).map silent) else .next s

/-- `@RX_EOF` (R201); not accepted while the block is not busy (R193). -/
def execRxEof (s : State) : Host.Outcome State Fault Refusal :=
  .next (if s.rxAccept then silent (finish .connReset s) else s)

/-- `@RX_ERROR code` (R202); not accepted while the block is not busy (R193). -/
def execRxError (code : Word32) (s : State) : Host.Outcome State Fault Refusal :=
  .next (if s.rxAccept then silent (finish .transportError { s with rxErrcode := code }) else s)

/-- `@TICK` (R200): accepted in every state, without effect while the block is not busy. -/
def execTick (s : State) : Host.Outcome State Fault Refusal :=
  if s.busy then outcome ((countTick s).map silent) else .next (silent s)

/-- `RX_READ i` (R204): never refused with `BUSY`. -/
def execRxRead (i : Word32) (s : State) : Host.Outcome State Fault Refusal :=
  if s.rxLen.toNat ≤ i.toNat then .next (raise .invalidArg s)
  else
    match Memory.read s.rxBuf i.toNat with
    | some b => .next (answerWith (.byte b) s)
    | none => .fault .noValue

end Sys2Proof.Machine
end

