-- ==== Sys2Proof/Machine/Reset.lean ====
section
/-! DEFINITION. The reset event (spec/70_reset_and_hazards.md R270, R271). -/

namespace Sys2Proof.Machine

/-- `@RESET` (R270): every field of the block to its reset value. What the environment still holds for the ports is not
the block's and stays. -/
def execReset (s : State) : Host.Outcome State Fault Refusal :=
  .next { State.resetOf s.params with inputs := s.inputs }

end Sys2Proof.Machine
end

