-- ==== Sys2Proof/Machine/Dispatch.lean ====
section
/-! DEFINITION. One arm per constructor of Instr: each calls the instruction's own meaning. -/

namespace Sys2Proof.Machine

def exec (i : Instr) (s : State) : Host.Outcome State Fault Refusal :=
  match i with
  | .setSlave a => Sys2Proof.Machine.execSetSlave a s
  | .setOwnAddr a => Sys2Proof.Machine.execSetOwnAddr a s
  | .setRespTimeout sec usec => Sys2Proof.Machine.execSetRespTimeout sec usec s
  | .setByteTimeout sec usec => Sys2Proof.Machine.execSetByteTimeout sec usec s
  | .readReg r => Sys2Proof.Machine.execReadReg r s
  | .crcInit => Sys2Proof.Machine.execCrcInit s
  | .crcUpdate b => Sys2Proof.Machine.execCrcUpdate b s
  | .txBuild cmd data => Sys2Proof.Machine.execTxBuild cmd data s
  | .rxStart => Sys2Proof.Machine.execRxStart s
  | .rxRead k => Sys2Proof.Machine.execRxRead k s
  | .rxConfirm => Sys2Proof.Machine.execRxConfirm s
  | .illegalOp00 => Sys2Proof.Machine.execIllegalOp00 s
  | .illegalOp06To07 op => Sys2Proof.Machine.execIllegalOp06To07 op s
  | .illegalOp08To0F op => Sys2Proof.Machine.execIllegalOp08To0F op s
  | .illegalOp12To13 op => Sys2Proof.Machine.execIllegalOp12To13 op s
  | .illegalOp14To17 op => Sys2Proof.Machine.execIllegalOp14To17 op s
  | .illegalOp18To1F op => Sys2Proof.Machine.execIllegalOp18To1F op s
  | .illegalOp21 => Sys2Proof.Machine.execIllegalOp21 s
  | .illegalOp22To23 op => Sys2Proof.Machine.execIllegalOp22To23 op s
  | .illegalOp24To27 op => Sys2Proof.Machine.execIllegalOp24To27 op s
  | .illegalOp28To2F op => Sys2Proof.Machine.execIllegalOp28To2F op s
  | .illegalOp33 => Sys2Proof.Machine.execIllegalOp33 s
  | .illegalOp34To37 op => Sys2Proof.Machine.execIllegalOp34To37 op s
  | .illegalOp38To3F op => Sys2Proof.Machine.execIllegalOp38To3F op s
  | .illegalOp40To7F op => Sys2Proof.Machine.execIllegalOp40To7F op s
  | .illegalOp80ToFF op => Sys2Proof.Machine.execIllegalOp80ToFF op s
  | .rxByte b => Sys2Proof.Machine.execRxByte b s
  | .rxEof => Sys2Proof.Machine.execRxEof s
  | .rxError code => Sys2Proof.Machine.execRxError code s
  | .tick => Sys2Proof.Machine.execTick s
  | .reset => Sys2Proof.Machine.execReset s
  | .cmdSetColor data => Sys2Proof.Machine.execCmdSetColor data s
  | .cmdSetMode data => Sys2Proof.Machine.execCmdSetMode data s
  | .cmdOta data => Sys2Proof.Machine.execCmdOta data s
  | .cmdGetVersion data => Sys2Proof.Machine.execCmdGetVersion data s
  | .cmdSetOutput data => Sys2Proof.Machine.execCmdSetOutput data s
  | .cmdUnrecognized code data => Sys2Proof.Machine.execCmdUnrecognized code data s
  | .cmdException code data => Sys2Proof.Machine.execCmdException code data s

end Sys2Proof.Machine
end

