-- ==== Sys2Proof/Machine/Fetch.lean ====
section
/-! DEFINITION. Which input the block takes next (spec/00_scope.md R10, spec/43_receive_controller.md R193). -/

namespace Sys2Proof.Machine

/-- R193: the events that are accepted only while the block is busy: `RX_BYTE`, `RX_EOF`, `RX_ERROR`. -/
def receiveEvent (code : Byte) : Bool := code == 0x80 || code == 0x81 || code == 0x82

/-- R47, R193: whether the block takes an input of these bytes while `rx_accept` is `accept`. -/
def takes (accept : Bool) (x : Input) : Bool :=
  match x.port, x.bytes with
  | _, [] => false
  | .event, code :: _ => accept || !receiveEvent code
  | .host, _ :: _ => true

/-- The presented bytes the block takes now, with what is presented before and after them. -/
structure Taken where
  before : List Input
  chunk : Input
  after : List Input
deriving DecidableEq, Repr

/-- The first presented input the block takes. What it does not take stays where it is: "a byte, end of stream or error
the transport holds stays in the transport" (R193). -/
def takeInput (accept : Bool) : List Input → Option Taken
  | [] => none
  | x :: xs =>
    if takes accept x then some ⟨[], x, xs⟩
    else (takeInput accept xs).map fun t => { t with before := x :: t.before }

/-- What is still presented once the block has taken one input and left the bytes `rest` of its byte string. -/
def Taken.remaining (t : Taken) (rest : List Byte) : List Input :=
  t.before ++ (if rest.isEmpty then [] else [⟨t.chunk.port, rest⟩]) ++ t.after

/-- The environment presents the bytes of an opcode table word before anything else. -/
def presentWord (nbits w : Nat) (s : State) : State :=
  { s with inputs := ⟨tablePort (tableByte nbits w 0), tableBytes nbits w⟩ :: s.inputs }

end Sys2Proof.Machine
end

