-- ==== Sys2Proof/Machine/Step.lean ====
section
/-! DEFINITION. One step of the block (spec/00_scope.md R10): it consumes one input, or, with none to take, does nothing. -/

namespace Sys2Proof.Machine

def step (s : State) : Host.Outcome State Fault Refusal :=
  match takeInput s.rxAccept s.inputs with
  | none => .next s
  | some t =>
    match decode t.chunk.port t.chunk.bytes with
    | .error e => .refused (.undecodable e)
    | .ok (i, rest) => exec i { s with inputs := t.remaining rest }

/-- `s` with the instruction of an opcode table word presented where the step takes its next input. -/
def State.withFetchWord (s : State) (nbits w : Nat) : State := presentWord nbits w s

end Sys2Proof.Machine
end

