-- ==== Sys2Proof/Safety.lean ====
section
/-! DEFINITION. What the spec promises of every reachable state (spec/10_state.md R32, R36 to R46, R51), as decidable
conditions on a state, and what a safe step is. -/

namespace Sys2Proof.Machine

/-- R32, R36, R37: the timeout registers hold legal values, and the machine is built with parameters R5 allows. -/
def State.configLegal (s : State) : Prop :=
  s.params.legal = true
    ∧ (Timeout.mk s.respToSec s.respToUsec).legalResp = true
    ∧ (Timeout.mk s.byteToSec s.byteToUsec).legalByte = true

/-- R33, R46: the fields no rule reads hold their reset values while their valid bit is 0. -/
def State.recordsLegal (s : State) : Prop :=
  (s.slaveValid = false → s.slave = 0)
    ∧ (s.reqValid = false → s.reqDst = 0 ∧ s.reqSrc = 0 ∧ s.reqSeq = 0 ∧ s.reqCmd = 0)

/-- R42, R43, R51: the cells that hold a byte are exactly those at the offsets below `RX_LEN`, which is at most
`MAX_FRAME_LEN`. -/
def State.bufferFilled (s : State) : Prop :=
  s.rxBuf.map Prod.fst = List.range s.rxLen.toNat ∧ s.rxLen.toNat ≤ s.params.maxFrameLen

/-- R51, `PAYLOAD`: the counters against the declared length `n`. -/
def State.payloadCounts (s : State) : Option Word16 → Prop
  | some n => s.rxLen.toNat + s.rxRemaining.toNat = 17 + n.toNat ∧ 17 + n.toNat ≤ s.params.maxFrameLen
  | none => False

/-- R51, `DONE`: the length against the declared length `n`. -/
def State.doneCounts (s : State) : Option Word16 → Prop
  | some n => s.rxLen.toNat = 17 + n.toNat
  | none => False

/-- R51, `DONE`: the integrity check of R199 holds on the bytes `f`. -/
def frameIntact : Option (List Byte) → Prop
  | some f => integrityOk f = true
  | none => False

/-- R40, R51: the statuses a reception can end in error with. -/
def Status.endsInError (e : Status) : Prop :=
  e = .badCrc ∨ e = .badData ∨ e = .timeout ∨ e = .connReset ∨ e = .transportError

/-- R51, by the receive controller's state, with R40's value of `RX_STATUS`. -/
def State.receptionLegal (s : State) : Prop :=
  match s.rxState with
  | .idle => s.rxLen = 0 ∧ s.rxRemaining = 0 ∧ s.rxStatus = .none
  | .header => s.rxLen.toNat + s.rxRemaining.toNat = 15 ∧ 1 ≤ s.rxRemaining.toNat ∧ s.rxStatus = .none
  | .payload =>
    s.payloadCounts (dataLength s.rxBuf) ∧ 15 ≤ s.rxLen.toNat ∧ 1 ≤ s.rxRemaining.toNat ∧ s.rxStatus = .none
  | .done =>
    s.rxRemaining = 0 ∧ s.doneCounts (dataLength s.rxBuf) ∧ s.rxStatus = .ok
      ∧ frameIntact (Memory.readRange s.rxBuf 0 s.rxLen.toNat)
  | .error => s.rxStatus.endsInError

/-- R41, R44, R45: the error code and the counters. -/
def State.countersLegal (s : State) : Prop :=
  (s.rxStatus ≠ .transportError → s.rxErrcode = 0)
    ∧ s.rxRemaining.toNat ≤ 65537
    ∧ s.timer.toNat < 2 ^ 63
    ∧ (s.busy = true → 1 ≤ s.timer.toNat)

/-- The invariant of the block: R32 and R51 together. -/
def State.Inv (s : State) : Prop :=
  s.configLegal ∧ s.recordsLegal ∧ s.bufferFilled ∧ s.receptionLegal ∧ s.countersLegal

/-- R250: the block reports every error as a status code, so a safe step does not fault. -/
def State.stepSafe (s : State) : Prop := ∀ f, step s ≠ .fault f

/-- The inputs taken one after another (R10), as long as each gives a next state. -/
def run : List Instr → State → Option State
  | [], s => some s
  | i :: is, s =>
    match exec i s with
    | .next t => run is t
    | .fault _ => none
    | .refused _ => none

/-- The bytes an input brings to the receive controller (R10, R205). -/
def receivedByte : Instr → Option Byte
  | .rxByte b => some b
  | _ => none

/-- The bytes of a sequence of inputs, in order. -/
def receivedBytes (is : List Instr) : List Byte := is.filterMap receivedByte

/-- The number of ticks in a sequence of inputs. -/
def tickCount (is : List Instr) : Nat := is.count .tick

/-- The input is a received byte or a tick: what a reception sees when nothing else intervenes (R205). -/
def byteOrTick : Instr → Bool
  | .rxByte _ => true
  | .tick => true
  | _ => false

end Sys2Proof.Machine
end

