-- ==== Sys2Proof/WellFormed.lean ====
section
/-! DEFINITION. Which terms of `Instr` an encoding of spec/30_encoding.md stands for: an opcode byte lies in the range of
its row (R105), the command byte a name stands for in the range of its row (R96 to R98), and a payload is as long as a
16-bit length can say (R104). -/

namespace Sys2Proof

/-- The value `x` lies in the range from `lo` to `hi`, both included. -/
def Byte.within (lo hi : Nat) (x : Byte) : Bool := decide (lo ≤ x.toNat) && decide (x.toNat ≤ hi)

/-- R104, R173: the payload's length `n` is a u16. -/
def payloadFits (data : List Byte) : Bool := decide (data.length ≤ 65535)

/-- The term stands for some bytes. -/
def Instr.wellFormed : Instr → Bool
  | .setSlave _ => true
  | .setOwnAddr _ => true
  | .setRespTimeout _ _ => true
  | .setByteTimeout _ _ => true
  | .readReg _ => true
  | .crcInit => true
  | .crcUpdate _ => true
  | .txBuild _ data => payloadFits data
  | .rxStart => true
  | .rxRead _ => true
  | .rxConfirm => true
  | .illegalOp00 => true
  | .illegalOp06To07 op => op.within 0x06 0x07
  | .illegalOp08To0F op => op.within 0x08 0x0F
  | .illegalOp12To13 op => op.within 0x12 0x13
  | .illegalOp14To17 op => op.within 0x14 0x17
  | .illegalOp18To1F op => op.within 0x18 0x1F
  | .illegalOp21 => true
  | .illegalOp22To23 op => op.within 0x22 0x23
  | .illegalOp24To27 op => op.within 0x24 0x27
  | .illegalOp28To2F op => op.within 0x28 0x2F
  | .illegalOp33 => true
  | .illegalOp34To37 op => op.within 0x34 0x37
  | .illegalOp38To3F op => op.within 0x38 0x3F
  | .illegalOp40To7F op => op.within 0x40 0x7F
  | .illegalOp80ToFF op => op.within 0x80 0xFF
  | .rxByte _ => true
  | .rxEof => true
  | .rxError _ => true
  | .tick => true
  | .reset => true
  | .cmdSetColor data => payloadFits data
  | .cmdSetMode data => payloadFits data
  | .cmdOta data => payloadFits data
  | .cmdGetVersion data => payloadFits data
  | .cmdSetOutput data => payloadFits data
  | .cmdUnrecognized code data => code.within 0x05 0x7F && payloadFits data
  | .cmdException code data => code.within 0x80 0xFF && payloadFits data

/-- The opcode is illegal (R136): the decoder refuses whatever bytes follow it. -/
def Instr.illegal : Instr → Bool
  | .illegalOp00 | .illegalOp06To07 _ | .illegalOp08To0F _ | .illegalOp12To13 _ | .illegalOp14To17 _
  | .illegalOp18To1F _ | .illegalOp21 | .illegalOp22To23 _ | .illegalOp24To27 _ | .illegalOp28To2F _ | .illegalOp33
  | .illegalOp34To37 _ | .illegalOp38To3F _ | .illegalOp40To7F _ | .illegalOp80ToFF _ => true
  | .setSlave _ | .setOwnAddr _ | .setRespTimeout _ _ | .setByteTimeout _ _ | .readReg _ | .crcInit | .crcUpdate _
  | .txBuild _ _ | .rxStart | .rxRead _ | .rxConfirm | .rxByte _ | .rxEof | .rxError _ | .tick | .reset
  | .cmdSetColor _ | .cmdSetMode _ | .cmdOta _ | .cmdGetVersion _ | .cmdSetOutput _ | .cmdUnrecognized _ _
  | .cmdException _ _ => false

end Sys2Proof
end

