-- ==== Sys2Proof/Certificates/Slice0/Obligations.lean ====
section
/-! DEFINITION. The statements for the provers. Each docstring names the rules of spec/ it rests on; where a clause is the
model's own choice or the spec marks a rule as its own inference, the docstring says so. -/

namespace Sys2Proof.Statements

open Machine

/-- The state once a host operation has returned `(OK, v)` and done nothing else (R9). -/
def returned (v : Value) (s : State) : State := { s with result := some ⟨.ok, v⟩ }

/-- The state once a host operation has been refused with the status `e` (R9). -/
def refusedWith (e : Status) (s : State) : State := { s with result := some ⟨e, .none⟩ }

/-- A frame written out field by field (R91, R93, R100), its checksum low byte first (R73). -/
def wireFrame (preamble : Vector Byte 8) (dst src : Byte) (seq : Word16) (cmd : Byte) (data : List Byte) : List Byte :=
  let body := preamble.toList
    ++ [dst, src, hi8 seq, lo8 seq, cmd, hi8 (BitVec.ofNat 16 data.length), lo8 (BitVec.ofNat 16 data.length)] ++ data
  body ++ [lo8 (crc16 body), hi8 (crc16 body)]

/-- The state once a request has been built (R173, R174). -/
def built (cmd : Byte) (data : List Byte) (s : State) : State :=
  { s with
    reqValid := true
    reqDst := s.slave
    reqSrc := s.ownAddr
    reqSeq := s.seq
    reqCmd := cmd
    seq := s.seq + 1
    result := some ⟨.ok, .frame (wireFrame s.params.preamble s.slave s.ownAddr s.seq cmd data)⟩ }

/-- R173's conditions for a build: not busy, the payload fits, the slave address is set. -/
def mayBuild (data : List Byte) (s : State) : Prop :=
  s.busy = false ∧ data.length ≤ s.params.maxFrameLen - 17 ∧ s.slaveValid = true

/-- R173 for an operation that builds a request: its three refusals, each changing nothing, and the build, in R173's
order. -/
def buildsByR173 (i : Instr) (cmd : Byte) (data : List Byte) (s : State) : Prop :=
  (s.busy = true → exec i s = .next (refusedWith .busy s))
  ∧ (s.busy = false → s.params.maxFrameLen - 17 < data.length → exec i s = .next (refusedWith .tooMuchData s))
  ∧ (s.busy = false → data.length ≤ s.params.maxFrameLen - 17 → s.slaveValid = false →
      exec i s = .next (refusedWith .invalidArg s))
  ∧ (mayBuild data s → exec i s = .next (built cmd data s))

/-- What R192 makes of `TIMER`: the byte timeout in microseconds, or `TIMER` as it was where that is zero. -/
def rearmed (s : State) : Word64 :=
  if s.byteToSec = 0 ∧ s.byteToUsec = 0 then s.timer
  else BitVec.ofNat 64 (1000000 * s.byteToSec.toNat + s.byteToUsec.toNat)

/-- The receive controller's fields are the same in both states (R39 to R45). -/
def sameReception (s t : State) : Prop :=
  t.rxState = s.rxState ∧ t.rxStatus = s.rxStatus ∧ t.rxErrcode = s.rxErrcode ∧ t.rxBuf = s.rxBuf
    ∧ t.rxLen = s.rxLen ∧ t.rxRemaining = s.rxRemaining ∧ t.timer = s.timer

end Sys2Proof.Statements

open Sys2Proof Sys2Proof.Machine Sys2Proof.Statements

/-! ### One statement for each instruction: what it does, and where it completes -/

/-- R131. The equations name every field that changes; all others, the buffer among them, are as they were. -/
def Obligations.SetSlaveStoresTheAddress : Prop :=
  ∀ (a : Byte) (s : State),
    (s.busy = false → exec (.setSlave a) s = .next (returned .none { s with slave := a, slaveValid := true }))
    ∧ (s.busy = true → exec (.setSlave a) s = .next (refusedWith .busy s))
    ∧ ∀ rest, decode .host (0x01 :: a :: rest) = .ok (.setSlave a, rest)

/-- R132. -/
def Obligations.SetOwnAddrStoresTheAddress : Prop :=
  ∀ (a : Byte) (s : State),
    (s.busy = false → exec (.setOwnAddr a) s = .next (returned .none { s with ownAddr := a }))
    ∧ (s.busy = true → exec (.setOwnAddr a) s = .next (refusedWith .busy s))
    ∧ ∀ rest, decode .host (0x02 :: a :: rest) = .ok (.setOwnAddr a, rest)

/-- R133. -/
def Obligations.SetRespTimeoutChecksAndStores : Prop :=
  ∀ (sec usec : Word32) (s : State),
    (s.busy = true → exec (.setRespTimeout sec usec) s = .next (refusedWith .busy s))
    ∧ (s.busy = false → 1000000 ≤ usec.toNat → exec (.setRespTimeout sec usec) s = .next (refusedWith .invalidArg s))
    ∧ (s.busy = false → sec = 0 → usec = 0 → exec (.setRespTimeout sec usec) s = .next (refusedWith .invalidArg s))
    ∧ (s.busy = false → usec.toNat < 1000000 → ¬ (sec = 0 ∧ usec = 0) →
        exec (.setRespTimeout sec usec) s = .next (returned .none { s with respToSec := sec, respToUsec := usec }))
    ∧ ∀ rest, decode .host (0x03 :: (be32Bytes sec ++ be32Bytes usec ++ rest)) = .ok (.setRespTimeout sec usec, rest)

/-- R134. -/
def Obligations.SetByteTimeoutChecksAndStores : Prop :=
  ∀ (sec usec : Word32) (s : State),
    (s.busy = true → exec (.setByteTimeout sec usec) s = .next (refusedWith .busy s))
    ∧ (s.busy = false → 1000000 ≤ usec.toNat → exec (.setByteTimeout sec usec) s = .next (refusedWith .invalidArg s))
    ∧ (s.busy = false → usec.toNat < 1000000 →
        exec (.setByteTimeout sec usec) s = .next (returned .none { s with byteToSec := sec, byteToUsec := usec }))
    ∧ ∀ rest, decode .host (0x04 :: (be32Bytes sec ++ be32Bytes usec ++ rest)) = .ok (.setByteTimeout sec usec, rest)

/-- R135 with the register map of R50 (the codes of `RX_STATE` are R39's; `RxCodesAsListed` says them), in every state,
busy or not. -/
def Obligations.ReadRegReturnsTheMappedRegister : Prop :=
  ∀ s : State,
    let reads (r : Byte) (v : Word64) : Prop := exec (.readReg r) s = .next (returned (.word v) s)
    reads 0x00 (BitVec.ofNat 64 ((if s.slaveValid then 256 else 0) + s.slave.toNat))
    ∧ reads 0x01 (s.ownAddr.setWidth 64)
    ∧ reads 0x02 (s.seq.setWidth 64)
    ∧ reads 0x03 (s.respToSec.setWidth 64)
    ∧ reads 0x04 (s.respToUsec.setWidth 64)
    ∧ reads 0x05 (s.byteToSec.setWidth 64)
    ∧ reads 0x06 (s.byteToUsec.setWidth 64)
    ∧ reads 0x07 ((s.crc ^^^ 0x0000).setWidth 64)
    ∧ reads 0x08 (s.rxState.code.setWidth 64)
    ∧ reads 0x09 (s.rxStatus.code.setWidth 64)
    ∧ reads 0x0A (s.rxErrcode.setWidth 64)
    ∧ reads 0x0B (s.rxLen.setWidth 64)
    ∧ reads 0x0C (s.rxRemaining.setWidth 64)
    ∧ reads 0x0D s.timer
    ∧ reads 0x0E (if s.reqValid then 1 else 0)
    ∧ reads 0x0F (s.reqDst.setWidth 64)
    ∧ reads 0x10 (s.reqSrc.setWidth 64)
    ∧ reads 0x11 (s.reqSeq.setWidth 64)
    ∧ reads 0x12 (s.reqCmd.setWidth 64)
    ∧ (∀ r : Byte, 0x12 < r.toNat → exec (.readReg r) s = .next (refusedWith .invalidArg s))
    ∧ ∀ (r : Byte) (rest : List Byte), decode .host (0x05 :: r :: rest) = .ok (.readReg r, rest)

/-- R153, in every state. -/
def Obligations.CrcInitStartsANewCrc : Prop :=
  (∀ s : State, exec .crcInit s = .next (returned .none { s with crc := 0xFFFF }))
    ∧ ∀ rest, decode .host (0x10 :: rest) = .ok (.crcInit, rest)

/-- R154 with the `crc_step` of R150 written out: eight shifts, the polynomial where the bit shifted out is 1. -/
def Obligations.CrcUpdateTakesOneCrcStep : Prop :=
  let shift (x : Word16) : Word16 := if x.getLsbD 0 then (x >>> 1) ^^^ 0xA001 else x >>> 1
  ∀ (b : Byte) (s : State),
    exec (.crcUpdate b) s = .next (returned .none
      { s with crc := shift (shift (shift (shift (shift (shift (shift (shift (s.crc ^^^ b.setWidth 16)))))))) })
    ∧ ∀ rest, decode .host (0x11 :: b :: rest) = .ok (.crcUpdate b, rest)

/-- R173 with R100's frame and R174's sequence number. The checks stand in R173's order. -/
def Obligations.TxBuildReturnsTheRequestFrame : Prop :=
  ∀ (cmd : Byte) (data : List Byte) (s : State),
    buildsByR173 (.txBuild cmd data) cmd data s
    ∧ (data.length ≤ 65535 → ∀ rest,
        decode .host ([0x20, cmd, hi8 (BitVec.ofNat 16 data.length), lo8 (BitVec.ofNat 16 data.length)] ++ data ++ rest)
          = .ok (.txBuild cmd data, rest))

/-- The command codes of the opcode table, refused and completing as the `TX_BUILD` that carries them: R96 names codes
0x00 to 0x04, R97 those to 0x7F, R99 those from 0x80, and the checks are R173's. That a command code row stands for that
operation, whose bytes are its bytes, is the model's choice: notes/assumptions/4.md. -/
def Obligations.CommandCodesBuildTheirRequest : Prop :=
  ∀ (code : Byte) (data : List Byte) (s : State),
    buildsByR173 (.cmdSetColor data) 0x00 data s
    ∧ buildsByR173 (.cmdSetMode data) 0x01 data s
    ∧ buildsByR173 (.cmdOta data) 0x02 data s
    ∧ buildsByR173 (.cmdGetVersion data) 0x03 data s
    ∧ buildsByR173 (.cmdSetOutput data) 0x04 data s
    ∧ buildsByR173 (.cmdUnrecognized code data) code data s
    ∧ buildsByR173 (.cmdException code data) code data s

/-- R195. -/
def Obligations.RxStartArmsTheHeaderPhase : Prop :=
  (∀ s : State,
    (s.busy = true → exec .rxStart s = .next (refusedWith .busy s))
    ∧ (s.busy = false → exec .rxStart s = .next (returned .none
        { s with
          rxBuf := []
          rxLen := 0
          rxRemaining := 15
          timer := BitVec.ofNat 64 (1000000 * s.respToSec.toNat + s.respToUsec.toNat)
          rxStatus := .none
          rxErrcode := 0
          rxState := .header })))
    ∧ (∀ a, Memory.read [] a = none)
    ∧ ∀ rest, decode .host (0x30 :: rest) = .ok (.rxStart, rest)

/-- R204, in every state, busy or not: an offset below `RX_LEN` gives its byte (it has one wherever the buffer is filled
as R51 says), any other is refused. -/
def Obligations.RxReadReturnsAReceivedByte : Prop :=
  ∀ (i : Word32) (s : State),
    (i.toNat < s.rxLen.toNat → ∀ b, Memory.read s.rxBuf i.toNat = some b →
        exec (.rxRead i) s = .next (returned (.byte b) s))
    ∧ (s.bufferFilled → i.toNat < s.rxLen.toNat → ∃ b, Memory.read s.rxBuf i.toNat = some b)
    ∧ (s.rxLen.toNat ≤ i.toNat → exec (.rxRead i) s = .next (refusedWith .invalidArg s))
    ∧ ∀ rest, decode .host (0x31 :: (be32Bytes i ++ rest)) = .ok (.rxRead i, rest)

/-- R237 with the classification of R230 to R236, on the bytes `f8` to `f14` of the received frame: the pre-check, the
exception path, the length, the command, the sequence number, in that order. A `DONE` state holds 17 bytes or more (R51),
so the seven bytes are there in every state that meets the invariant. -/
def Obligations.RxConfirmClassifiesTheFrame : Prop :=
  (∀ s : State, s.rxState ≠ .done → exec .rxConfirm s = .next (refusedWith .notReady s))
  ∧ (∀ s : State, s.reqValid = false → exec .rxConfirm s = .next (refusedWith .notReady s))
  ∧ (∀ (f8 f9 f10 f11 f12 f13 f14 : Byte) (s : State),
      s.rxState = .done → s.reqValid = true → 15 ≤ s.rxLen.toNat →
      Memory.read s.rxBuf 8 = some f8 → Memory.read s.rxBuf 9 = some f9 → Memory.read s.rxBuf 10 = some f10 →
      Memory.read s.rxBuf 11 = some f11 → Memory.read s.rxBuf 12 = some f12 → Memory.read s.rxBuf 13 = some f13 →
      Memory.read s.rxBuf 14 = some f14 →
      exec .rxConfirm s = .next
        (if f9 ≠ s.reqDst ∨ f8 ≠ s.reqSrc then refusedWith .badSlave s
         else if 0x80 ≤ f12.toNat then
           if s.rxLen.toNat = 17 ∧ f12 = s.reqCmd ||| 0x80 then refusedWith .excNack s else refusedWith .badException s
         else if s.reqCmd ≠ 0x03 ∧ s.rxLen.toNat ≠ 17 then refusedWith .badData s
         else if f12 ≠ s.reqCmd then refusedWith .badData s
         else if f10.toNat * 256 + f11.toNat ≠ s.reqSeq.toNat then refusedWith .badData s
         else returned (.word (BitVec.ofNat 64 (15 * 4294967296 + (f13.toNat * 256 + f14.toNat)))) s))
  ∧ ∀ rest, decode .host (0x32 :: rest) = .ok (.rxConfirm, rest)

/-- R136, for the 15 rows of illegal opcodes. -/
def Obligations.IllegalOpcodesChangeNothing : Prop :=
  ∀ (op : Byte) (s : State),
    exec .illegalOp00 s = .next (refusedWith .illegalOp s)
    ∧ exec (.illegalOp06To07 op) s = .next (refusedWith .illegalOp s)
    ∧ exec (.illegalOp08To0F op) s = .next (refusedWith .illegalOp s)
    ∧ exec (.illegalOp12To13 op) s = .next (refusedWith .illegalOp s)
    ∧ exec (.illegalOp14To17 op) s = .next (refusedWith .illegalOp s)
    ∧ exec (.illegalOp18To1F op) s = .next (refusedWith .illegalOp s)
    ∧ exec .illegalOp21 s = .next (refusedWith .illegalOp s)
    ∧ exec (.illegalOp22To23 op) s = .next (refusedWith .illegalOp s)
    ∧ exec (.illegalOp24To27 op) s = .next (refusedWith .illegalOp s)
    ∧ exec (.illegalOp28To2F op) s = .next (refusedWith .illegalOp s)
    ∧ exec .illegalOp33 s = .next (refusedWith .illegalOp s)
    ∧ exec (.illegalOp34To37 op) s = .next (refusedWith .illegalOp s)
    ∧ exec (.illegalOp38To3F op) s = .next (refusedWith .illegalOp s)
    ∧ exec (.illegalOp40To7F op) s = .next (refusedWith .illegalOp s)
    ∧ exec (.illegalOp80ToFF op) s = .next (refusedWith .illegalOp s)

/-- R196 and R197: a byte in `HEADER` goes to offset `RX_LEN`, and the fifteenth completes the header. An event returns
nothing to the host (R11): `r` is whatever the model's result output then shows. -/
def Obligations.HeaderByteIsStored : Prop :=
  ∀ (b : Byte) (s : State), s.rxState = .header → s.rxLen.toNat < s.params.maxFrameLen →
    let buf := Memory.write s.rxBuf s.rxLen.toNat b
    (1 < s.rxRemaining.toNat → ∃ r, exec (.rxByte b) s = .next
        { s with rxBuf := buf, rxLen := s.rxLen + 1, rxRemaining := s.rxRemaining - 1, result := r })
    ∧ (s.rxRemaining.toNat = 1 → ∀ h l, Memory.read buf 13 = some h → Memory.read buf 14 = some l →
        let n := h.toNat * 256 + l.toNat
        (17 + n ≤ s.params.maxFrameLen → ∃ r, exec (.rxByte b) s = .next
          { s with
            rxBuf := buf
            rxLen := s.rxLen + 1
            rxRemaining := BitVec.ofNat 32 (n + 2)
            rxState := .payload
            timer := rearmed s
            result := r })
        ∧ (s.params.maxFrameLen < 17 + n → ∃ r, exec (.rxByte b) s = .next
          { s with
            rxBuf := buf
            rxLen := s.rxLen + 1
            rxRemaining := 0
            rxState := .error
            rxStatus := .badData
            result := r }))

/-- R198 and R199: a byte in `PAYLOAD` goes to offset `RX_LEN`, and the last one, `y`, ends the reception by the
checksum of the bytes before the trailer. `r` as in `HeaderByteIsStored`. -/
def Obligations.PayloadByteIsStored : Prop :=
  ∀ (b : Byte) (s : State), s.rxState = .payload → s.rxLen.toNat < s.params.maxFrameLen →
    let buf := Memory.write s.rxBuf s.rxLen.toNat b
    (1 < s.rxRemaining.toNat → ∃ r, exec (.rxByte b) s = .next
        { s with
          rxBuf := buf
          rxLen := s.rxLen + 1
          rxRemaining := s.rxRemaining - 1
          timer := rearmed s
          result := r })
    ∧ (s.rxRemaining.toNat = 1 → ∀ (body : List Byte) (x y : Byte),
        Memory.readRange buf 0 (s.rxLen + 1).toNat = some (body ++ [x, y]) →
        (x = lo8 (crc16 body) ∧ y = hi8 (crc16 body) → ∃ r, exec (.rxByte b) s = .next
          { s with
            rxBuf := buf
            rxLen := s.rxLen + 1
            rxRemaining := 0
            rxState := .done
            rxStatus := .ok
            result := r })
        ∧ (¬ (x = lo8 (crc16 body) ∧ y = hi8 (crc16 body)) → ∃ r, exec (.rxByte b) s = .next
          { s with
            rxBuf := buf
            rxLen := s.rxLen + 1
            rxRemaining := 0
            rxState := .error
            rxStatus := .badCrc
            result := r }))

/-- R200. `r` as in `HeaderByteIsStored`. -/
def Obligations.TickCountsTheWaitDown : Prop :=
  (∀ s : State,
    (s.busy = true → 1 < s.timer.toNat → ∃ r, exec .tick s = .next { s with timer := s.timer - 1, result := r })
    ∧ (s.busy = true → s.timer.toNat = 1 →
        ∃ r, exec .tick s = .next { s with timer := 0, rxState := .error, rxStatus := .timeout, result := r })
    ∧ (s.busy = false → ∃ r, exec .tick s = .next { s with result := r }))
  ∧ ∀ rest, decode .event (0x83 :: rest) = .ok (.tick, rest)

/-- R201. `r` as in `HeaderByteIsStored`. While not busy the event has no step (R193); that `exec` of it then answers the
same state is the model's deduction: notes/assumptions/18.md. -/
def Obligations.EndOfStreamEndsTheReception : Prop :=
  (∀ s : State,
    (s.busy = true → ∃ r, exec .rxEof s = .next { s with rxState := .error, rxStatus := .connReset, result := r })
    ∧ (s.busy = false → exec .rxEof s = .next s))
  ∧ ∀ rest, decode .event (0x81 :: rest) = .ok (.rxEof, rest)

/-- R202. `r` as in `HeaderByteIsStored`. While not busy the event has no step (R193); that `exec` of it then answers the
same state is the model's deduction: notes/assumptions/18.md. -/
def Obligations.TransportErrorIsKept : Prop :=
  ∀ (code : Word32) (s : State),
    (s.busy = true → ∃ r, exec (.rxError code) s = .next
      { s with rxErrcode := code, rxState := .error, rxStatus := .transportError, result := r })
    ∧ (s.busy = false → exec (.rxError code) s = .next s)
    ∧ ∀ rest, decode .event (0x82 :: (be32Bytes code ++ rest)) = .ok (.rxError code, rest)

/-- R270: every field of the block at its reset value, from every state; the model starts from the state this gives. -/
def Obligations.ResetSetsEveryField : Prop :=
  (∀ rest, decode .event (0xFF :: rest) = .ok (.reset, rest))
  ∧ exec .reset State.reset = .next State.reset
  ∧ ∀ s : State, ∃ t, exec .reset s = .next t
    ∧ t.slaveValid = false ∧ t.slave = 0x00 ∧ t.ownAddr = s.params.ownAddrReset ∧ t.seq = 0x0000
    ∧ t.respToSec = s.params.respToReset.sec ∧ t.respToUsec = s.params.respToReset.usec
    ∧ t.byteToSec = s.params.byteToReset.sec ∧ t.byteToUsec = s.params.byteToReset.usec
    ∧ t.crc = 0xFFFF ∧ t.rxState = .idle ∧ t.rxStatus = .none ∧ t.rxErrcode = 0
    ∧ (∀ a, Memory.read t.rxBuf a = none) ∧ t.rxLen = 0 ∧ t.rxRemaining = 0 ∧ t.timer = 0
    ∧ t.reqValid = false ∧ t.reqDst = 0 ∧ t.reqSrc = 0 ∧ t.reqSeq = 0 ∧ t.reqCmd = 0
    ∧ t.params = s.params

/-- R193: in `IDLE`, `DONE` and `ERROR` the three receive events have no step and are not taken, in the receiving states
they are taken, and `TICK` and `RESET` are taken in every state. The clauses on `exec` are the model's deduction
(notes/assumptions/18.md), and `takes`, which says what is taken from the queue of presented inputs, is the model's choice
(notes/assumptions/2.md). What is not taken stays presented: `UnacceptedInputStaysPresented`. -/
def Obligations.UnacceptedEventsTakeNoStep : Prop :=
  ∀ s : State,
    (s.rxState = .idle ∨ s.rxState = .done ∨ s.rxState = .error →
      s.rxAccept = false
      ∧ (∀ b : Byte, exec (.rxByte b) s = .next s ∧ takes s.rxAccept ⟨.event, encode (.rxByte b)⟩ = false)
      ∧ (exec .rxEof s = .next s ∧ takes s.rxAccept ⟨.event, encode .rxEof⟩ = false)
      ∧ ∀ code : Word32, exec (.rxError code) s = .next s ∧ takes s.rxAccept ⟨.event, encode (.rxError code)⟩ = false)
    ∧ (s.rxState = .header ∨ s.rxState = .payload →
      s.rxAccept = true
      ∧ (∀ b : Byte, takes s.rxAccept ⟨.event, encode (.rxByte b)⟩ = true)
      ∧ takes s.rxAccept ⟨.event, encode .rxEof⟩ = true
      ∧ ∀ code : Word32, takes s.rxAccept ⟨.event, encode (.rxError code)⟩ = true)
    ∧ takes s.rxAccept ⟨.event, encode .tick⟩ = true
    ∧ takes s.rxAccept ⟨.event, encode .reset⟩ = true

/-- R11: an accepted event returns nothing. That the result output then shows nothing is the model's choice:
notes/assumptions/3.md. Only the three receive events can be not accepted (R193); that `exec` then answers the same state
is the model's deduction: notes/assumptions/18.md. -/
def Obligations.EventsReturnNothing : Prop :=
  ∀ (i : Instr) (s t : State), portOf i = .event → exec i s = .next t →
    t.result = none
    ∨ (((∃ b, i = .rxByte b) ∨ i = .rxEof ∨ ∃ code, i = .rxError code) ∧ s.busy = false ∧ t = s)

/-! ### Pure functions and codes -/

/-- R39 and R111: the codes a register read shows. -/
def Obligations.RxCodesAsListed : Prop :=
  RxState.idle.code = 0 ∧ RxState.header.code = 1 ∧ RxState.payload.code = 2 ∧ RxState.done.code = 3
  ∧ RxState.error.code = 4
  ∧ Status.ok.code = 0x00 ∧ Status.excNack.code = 0x07 ∧ Status.badCrc.code = 0x10 ∧ Status.badData.code = 0x11
  ∧ Status.badException.code = 0x12 ∧ Status.tooMuchData.code = 0x13 ∧ Status.badSlave.code = 0x14
  ∧ Status.timeout.code = 0x20 ∧ Status.connReset.code = 0x21 ∧ Status.transportError.code = 0x22
  ∧ Status.invalidArg.code = 0x30 ∧ Status.busy.code = 0x31 ∧ Status.notReady.code = 0x32
  ∧ Status.illegalOp.code = 0x33 ∧ Status.none.code = 0xFF
  ∧ ∀ s : State, s.busy = true ↔ s.rxState = .header ∨ s.rxState = .payload

/-- R170. -/
def Obligations.ResponseLengthByCommand : Prop :=
  computeResponseLength 0x03 = none ∧ ∀ cmd : Byte, cmd ≠ 0x03 → computeResponseLength cmd = some 17

/-- R90, R91, R94: every field of a built frame stands at its offset, and the frame has 17 + n bytes. -/
def Obligations.FrameFieldsStandAtTheirOffsets : Prop :=
  ∀ (cmd : Byte) (data : List Byte) (s : State),
    let f := requestFrame s cmd data
    f.length = 17 + data.length
    ∧ (∀ k, k < 8 → f[k]? = s.params.preamble.toList[k]?)
    ∧ f[8]? = some s.slave ∧ f[9]? = some s.ownAddr
    ∧ f[10]? = some (hi8 s.seq) ∧ f[11]? = some (lo8 s.seq) ∧ f[12]? = some cmd
    ∧ f[13]? = some (hi8 (BitVec.ofNat 16 data.length)) ∧ f[14]? = some (lo8 (BitVec.ofNat 16 data.length))
    ∧ (∀ k, k < data.length → f[15 + k]? = data[k]?)
    ∧ f[15 + data.length]? = some (lo8 (crc16 (f.take (15 + data.length))))
    ∧ f[16 + data.length]? = some (hi8 (crc16 (f.take (15 + data.length))))

/-- R152, which the spec marks as computed from R150 and R151: the check values, and that the CRC of a whole frame,
trailer included, is 0 exactly when the trailer matches. -/
def Obligations.CrcCheckValuesAndResidue : Prop :=
  crc16 [] = 0xFFFF ∧ crc16 [0x00] = 0x40BF ∧ crc16 [0x01] = 0x807E ∧ crc16 [0xFF] = 0x00FF
  ∧ crc16 [0x01, 0x02] = 0xE181
  ∧ crc16 [0x31, 0x32, 0x33, 0x34, 0x35, 0x36, 0x37, 0x38, 0x39] = 0x4B37
  ∧ ∀ (f : List Byte) (x y : Byte), crc16 (f ++ [x, y]) = 0x0000 ↔ x = lo8 (crc16 f) ∧ y = hi8 (crc16 f)

/-- R154's corner case, which the spec marks as derived: after `CRC_INIT` and one `CRC_UPDATE` for each byte of a list,
`READ_REG 0x07` returns the list's `crc16`, from every state. -/
def Obligations.CrcGeneratorComputesCrc16 : Prop :=
  ∀ (l : List Byte) (s : State), ∃ t,
    run (.crcInit :: (l.map Instr.crcUpdate ++ [.readReg 0x07])) s = some t
    ∧ t.crc = crc16 l ∧ t.result = some ⟨.ok, .word ((crc16 l).setWidth 64)⟩

/-- R172 against R199: a finalized frame passes the integrity check, and the same frame with any one byte changed does
not. The second half is a consequence of R150's polynomial, which the spec does not state. -/
def Obligations.ChecksumCatchesAnyChangedByte : Prop :=
  ∀ body : List Byte,
    integrityOk (finalize body) = true
    ∧ ∀ (k : Nat) (old new : Byte), (finalize body)[k]? = some old → new ≠ old →
        integrityOk ((finalize body).set k new) = false

/-! ### The encoding -/

/-- Decoding what the encoder writes gives the operation back, on its port, with every operand, whatever bytes follow
(R104 to R107). The operation is the instruction itself, but for the names of the command codes, whose operation `core` is
the `TX_BUILD` they spell: the model's choice, notes/assumptions/4.md. That the decoder drops the bytes after an illegal
opcode is the model's deduction from R136: notes/assumptions/11.md. -/
def Obligations.DecodeReadsBackEveryEncoding : Prop :=
  ∀ (i : Instr) (rest : List Byte), i.wellFormed = true →
    decode (portOf i) (encode i ++ rest) = .ok (i.core, if i.illegal then [] else rest)

/-- The other direction: whatever the decoder reads is well-formed, belongs to the port, and its bytes are the encoding of
it and no others (R104 to R107). It never reads the name of a command code, whose bytes are those of `TX_BUILD`: the
model's choice, notes/assumptions/4.md. An illegal opcode is excepted from the clause on bytes because the model drops what
follows it: notes/assumptions/11.md. -/
def Obligations.DecodeReadsOnlyEncodings : Prop :=
  ∀ (p : Port) (bytes rest : List Byte) (i : Instr), decode p bytes = .ok (i, rest) →
    portOf i = p ∧ i.wellFormed = true ∧ i.core = i ∧ (i.illegal = false → bytes = encode i ++ rest)

/-- R105, R136: every opcode byte outside the table is an illegal operation, which returns `ILLEGAL_OP` and changes no
state; every opcode byte of the table is none. That the decoder answers it as one input and drops the rest of the byte
string is the model's deduction from R136 ("a model ... refuses the rest of that stream"): notes/assumptions/11.md. -/
def Obligations.OpcodesOutsideTheTableAreIllegal : Prop :=
  ∀ (op : Byte) (rest : List Byte),
    let legal := op ∈ [0x01, 0x02, 0x03, 0x04, 0x05, 0x10, 0x11, 0x20, 0x30, 0x31, 0x32]
    (¬ legal → ∃ i, decode .host (op :: rest) = .ok (i, []) ∧ ∀ s, exec i s = .next (refusedWith .illegalOp s))
    ∧ (legal → ∀ i r, decode .host (op :: rest) = .ok (i, r) → i.illegal = false)

/-- R106: a byte string on the event input that starts with a code of no event is refused by the decoder. -/
def Obligations.CodesOfNoEventAreRefused : Prop :=
  ∀ (code : Byte) (rest : List Byte), code ∉ [0x80, 0x81, 0x82, 0x83, 0xFF] →
    decode .event (code :: rest) = .error (.notAnEvent code)

/-- The words of some inputs, written out from R104 to R106 and from spec/95_test_vectors.md. -/
def Obligations.ListedWordsDecode : Prop :=
  decode .host [0x03, 0x00, 0x00, 0x00, 0x00, 0x00, 0x0F, 0x42, 0x3F] = .ok (.setRespTimeout 0 999999, [])
  ∧ decode .host [0x04, 0x00, 0x00, 0x00, 0x07, 0x00, 0x00, 0x00, 0x00] = .ok (.setByteTimeout 7 0, [])
  ∧ decode .host [0x20, 0x00, 0x00, 0x03, 0xFF, 0x00, 0x00] = .ok (.txBuild 0x00 [0xFF, 0x00, 0x00], [])
  ∧ decode .host [0x31, 0x00, 0x00, 0x00, 0x10] = .ok (.rxRead 16, [])
  ∧ decode .event [0x82, 0x00, 0x00, 0x00, 0x68] = .ok (.rxError 104, [])
  ∧ decode .event [0x80, 0x84] = .ok (.rxByte 0x84, [])

/-! ### The step -/

/-- When the first bytes the block takes decode to an instruction, the step is that instruction's `exec` at the state in
which they are taken and whatever followed them on their port is still presented. The queue of presented inputs is the
model's own: notes/assumptions/2.md. -/
def Obligations.StepRunsTheDecodedInput : Prop :=
  ∀ (s : State) (t : Taken) (i : Instr) (rest : List Byte),
    takeInput s.rxAccept s.inputs = some t → decode t.chunk.port t.chunk.bytes = .ok (i, rest) →
    step s = exec i { s with inputs := t.before ++ (if rest = [] then [] else [⟨t.chunk.port, rest⟩]) ++ t.after }

/-- R10: "with no input it does nothing". The queue is the model's own: notes/assumptions/2.md. -/
def Obligations.StepWithoutInputDoesNothing : Prop :=
  ∀ s : State, s.inputs = [] → step s = .next s

/-- R193: an input the block does not accept stays presented, first as before, and the step is the one the block would
take without it. The queue is the model's own: notes/assumptions/2.md. -/
def Obligations.UnacceptedInputStaysPresented : Prop :=
  ∀ (x : Input) (xs : List Input) (s t : State), takes s.rxAccept x = false →
    step { s with inputs := xs } = .next t → step { s with inputs := x :: xs } = .next { t with inputs := x :: t.inputs }

/-! ### What no other input changes -/

/-- R71: the buffer changes only by `RX_BYTE`, which touches only offset `RX_LEN`, and by `RX_START` and reset, after
which no cell holds a value. -/
def Obligations.OnlyReceptionTouchesTheBuffer : Prop :=
  ∀ (i : Instr) (s t : State), exec i s = .next t →
    t.rxBuf = s.rxBuf
    ∨ (∃ b, i = .rxByte b ∧ Memory.read t.rxBuf s.rxLen.toNat = some b
        ∧ ∀ a, a ≠ s.rxLen.toNat → Memory.read t.rxBuf a = Memory.read s.rxBuf a)
    ∨ ((i = .rxStart ∨ i = .reset) ∧ ∀ a, Memory.read t.rxBuf a = none)

/-- R33, R34, R36, R37: each configuration register changes only by its own setter and by reset. -/
def Obligations.ConfigurationChangesOnlyBySetters : Prop :=
  ∀ (i : Instr) (s t : State), exec i s = .next t → i ≠ .reset →
    ((∀ a, i ≠ .setSlave a) → t.slave = s.slave ∧ t.slaveValid = s.slaveValid)
    ∧ ((∀ a, i ≠ .setOwnAddr a) → t.ownAddr = s.ownAddr)
    ∧ ((∀ a b, i ≠ .setRespTimeout a b) → t.respToSec = s.respToSec ∧ t.respToUsec = s.respToUsec)
    ∧ ((∀ a b, i ≠ .setByteTimeout a b) → t.byteToSec = s.byteToSec ∧ t.byteToUsec = s.byteToUsec)

/-- R35, R46, R174: the sequence number and the request record change only by a build that succeeds, which advances the
one by 1 and writes the other, and by reset. The build is a `TX_BUILD`, under that name or under that of the command code
it carries (`core`, the model's choice: notes/assumptions/4.md). -/
def Obligations.RequestRecordChangesOnlyByABuild : Prop :=
  ∀ (i : Instr) (s t : State), exec i s = .next t → i ≠ .reset →
    (t.seq = s.seq ∧ t.reqValid = s.reqValid ∧ t.request = s.request)
    ∨ ∃ cmd data, i.core = .txBuild cmd data ∧ mayBuild data s ∧ t = built cmd data s

/-- R35 and R46 for the block's steps: the sequence number and the request record are written only by `TX_BUILD` and by
reset, whatever bytes arrive on whatever port. The queue of presented inputs is the model's own: notes/assumptions/2.md. -/
def Obligations.OnlyTxBuildAndResetWriteTheSequence : Prop :=
  ∀ s t : State, step s = .next t →
    (t.seq = s.seq ∧ t.reqValid = s.reqValid ∧ t.request = s.request)
    ∨ ∃ k rest, takeInput s.rxAccept s.inputs = some k ∧
        ((∃ cmd data, decode k.chunk.port k.chunk.bytes = .ok (.txBuild cmd data, rest) ∧ mayBuild data s
            ∧ t = built cmd data { s with inputs := k.remaining rest })
          ∨ decode k.chunk.port k.chunk.bytes = .ok (.reset, rest))

/-- R156: no input but the CRC generator's own, the register read and reset reads or writes the `CRC` register: with
another value there they do the same and leave that value. `CRC_INIT` and `CRC_UPDATE` complete in every state and change
nothing else. -/
def Obligations.CrcRegisterIsIndependent : Prop :=
  (∀ (i : Instr) (c : Word16) (s t : State),
    i ≠ .crcInit → (∀ b, i ≠ .crcUpdate b) → (∀ r, i ≠ .readReg r) → i ≠ .reset →
    exec i s = .next t → t.crc = s.crc ∧ exec i { s with crc := c } = .next { t with crc := c })
  ∧ ∀ (i : Instr) (s : State), i = .crcInit ∨ (∃ b, i = .crcUpdate b) →
    ∃ t, exec i s = .next t ∧ t = { s with crc := t.crc, result := t.result }

/-- R102: on reception `PREAMBLE` is compared with nothing: a machine built with another preamble receives and confirms
the same. -/
def Obligations.ReceptionIgnoresThePreamble : Prop :=
  ∀ (i : Instr) (p : Vector Byte 8) (s t : State), byteOrTick i = true ∨ i = .rxConfirm → exec i s = .next t →
    exec i { s with params := { s.params with preamble := p } }
      = .next { t with params := { t.params with preamble := p } }

/-- R190: host operations other than `RX_START` leave the receive controller as it is (the names of the command codes among
them, as spellings of `TX_BUILD`: notes/assumptions/4.md). -/
def Obligations.HostOperationsLeaveReceptionAlone : Prop :=
  ∀ (i : Instr) (s t : State), portOf i ≠ .event → i ≠ .rxStart → exec i s = .next t → sameReception s t

/-- R203, which the spec marks as derived: once a reception has ended (or none has begun), nothing but `RX_START` and
`RESET` changes the receive controller. -/
def Obligations.EndedReceptionIsFrozen : Prop :=
  ∀ (i : Instr) (s t : State), s.busy = false → i ≠ .rxStart → i ≠ .reset → exec i s = .next t → sameReception s t

/-- R203, which the spec marks as derived: a reception ends only by a receive event or tick that finishes it, which sets
the status it ended with, or by `RESET`, after which no status is reported (R271). -/
def Obligations.ReceptionEndsOnlyByItsEvents : Prop :=
  ∀ (i : Instr) (s t : State), s.busy = true → exec i s = .next t → t.busy = false →
    (i = .reset ∧ t.rxState = .idle ∧ t.rxStatus = .none)
    ∨ ((∃ b, i = .rxByte b) ∧ ((t.rxState = .done ∧ t.rxStatus = .ok)
        ∨ (t.rxState = .error ∧ (t.rxStatus = .badCrc ∨ t.rxStatus = .badData))))
    ∨ (i = .tick ∧ t.rxState = .error ∧ t.rxStatus = .timeout ∧ t.timer = 0)
    ∨ (i = .rxEof ∧ t.rxState = .error ∧ t.rxStatus = .connReset)
    ∨ (∃ code, i = .rxError code ∧ t.rxState = .error ∧ t.rxStatus = .transportError ∧ t.rxErrcode = code)

/-- R130: while a reception is in progress the setters, `TX_BUILD` and `RX_START` are refused with `BUSY`, whatever
their operands, and the five other host operations are not. -/
def Obligations.BusyRefusesExactlyTheListedOperations : Prop :=
  ∀ (i : Instr) (s : State), s.busy = true →
    (((∃ a, i = .setSlave a) ∨ (∃ a, i = .setOwnAddr a) ∨ (∃ a b, i = .setRespTimeout a b)
        ∨ (∃ a b, i = .setByteTimeout a b) ∨ (∃ c d, i = .txBuild c d) ∨ i = .rxStart) →
      exec i s = .next (refusedWith .busy s))
    ∧ (((∃ r, i = .readReg r) ∨ i = .crcInit ∨ (∃ b, i = .crcUpdate b) ∨ (∃ k, i = .rxRead k) ∨ i = .rxConfirm) →
      ∀ t v, exec i s = .next t → t.result ≠ some ⟨.busy, v⟩)

/-- R9, R11, R250: every host operation returns a status other than `NONE`, and one that does not return `OK` returns no
value and leaves every other field as it was (the names of the command codes too: notes/assumptions/4.md). -/
def Obligations.RefusedOperationsChangeNothing : Prop :=
  ∀ (i : Instr) (s t : State), portOf i ≠ .event → exec i s = .next t →
    ∃ e v, t.result = some ⟨e, v⟩ ∧ e ≠ .none ∧ (e ≠ .ok → t = refusedWith e s)

/-- The three reading operations write no state and, repeated, return the same: R135 for `READ_REG`, R204 for `RX_READ`,
R237 and R238 for `RX_CONFIRM`. R77, that a read has no side effect, the spec marks as derived. -/
def Obligations.ReadsHaveNoSideEffects : Prop :=
  ∀ (i : Instr) (s t : State), (∃ r, i = .readReg r) ∨ (∃ k, i = .rxRead k) ∨ i = .rxConfirm →
    exec i s = .next t → t = { s with result := t.result } ∧ exec i t = .next t

/-- R174: any number of builds in a row whose conditions hold advance `SEQ` by that number modulo 2^16, and the last one's
request carries the number before. -/
def Obligations.SequenceNumbersCountBuilds : Prop :=
  ∀ (reqs : List (Byte × List Byte)) (s : State),
    (∀ r ∈ reqs, mayBuild r.2 s) →
    ∃ t, run (reqs.map fun r => .txBuild r.1 r.2) s = some t
      ∧ t.seq = s.seq + BitVec.ofNat 16 reqs.length
      ∧ (reqs ≠ [] → t.reqSeq = s.seq + BitVec.ofNat 16 (reqs.length - 1))

/-! ### Receptions -/

/-- R200: "a wait of `T` ticks times out on the `T`-th tick after it was armed": with no other input, the reception is
still busy after one tick fewer and ends with `TIMEOUT` on that tick, its bytes kept. -/
def Obligations.WaitTimesOutOnItsLastTick : Prop :=
  ∀ (k : Nat) (s : State), s.busy = true → s.timer.toNat = k + 1 →
    (∃ t, run (List.replicate k .tick) s = some t ∧ t.rxState = s.rxState ∧ t.timer = 1)
    ∧ ∃ t, run (List.replicate (k + 1) .tick) s = some t ∧ t.rxState = .error ∧ t.rxStatus = .timeout ∧ t.timer = 0
      ∧ t.rxBuf = s.rxBuf ∧ t.rxLen = s.rxLen ∧ t.rxRemaining = s.rxRemaining

/-- R206 (1 and 3), which the spec marks as derived: the header phase, and with the byte timeout disabled the whole
reception, runs under one deadline: every tick counts against it and no byte gives any back. -/
def Obligations.OneDeadlineWithoutRearming : Prop :=
  ∀ (is : List Instr) (s t : State), s.busy = true → (∀ i ∈ is, byteOrTick i = true) → run is s = some t →
    (t.rxState = .header ∨ (s.byteToSec = 0 ∧ s.byteToUsec = 0 ∧ t.busy = true)) →
    t.timer.toNat + tickCount is = s.timer.toNat

/-- R205, which the spec marks as derived: length discovery. A reception started by `RX_START` that sees only received
bytes and ticks, and in which no timeout fires, takes exactly the 17 + n bytes its header declares: before the last of
them it is still receiving, and with the last it ends by the integrity check with exactly those bytes in the buffer, how
the ticks fell between them notwithstanding. -/
def Obligations.ReceptionTakesTheDeclaredLength : Prop :=
  ∀ (f : List Byte) (h l : Byte) (s0 s t : State) (is : List Instr),
    s0.busy = false → exec .rxStart s0 = .next s →
    f[13]? = some h → f[14]? = some l → f.length = 17 + (h.toNat * 256 + l.toNat) →
    f.length ≤ s0.params.maxFrameLen →
    (∀ i ∈ is, byteOrTick i = true) → run is s = some t → t.rxStatus ≠ .timeout →
    (receivedBytes is <+: f → receivedBytes is ≠ f → t.busy = true
      ∧ t.rxLen.toNat = (receivedBytes is).length ∧ ∀ a, Memory.read t.rxBuf a = (receivedBytes is)[a]?)
    ∧ (receivedBytes is = f → t.rxLen.toNat = f.length ∧ t.rxRemaining = 0 ∧ (∀ a, Memory.read t.rxBuf a = f[a]?)
      ∧ (integrityOk f = true → t.rxState = .done ∧ t.rxStatus = .ok)
      ∧ (integrityOk f = false → t.rxState = .error ∧ t.rxStatus = .badCrc))

/-- R101, R235, R236 with R173, R195 to R199 and R237: a round trip. Once a request is built and a reception started, the
response the spec describes (roles reversed, the request's sequence number and command, any preamble, no payload but to
get-version), received byte by byte, is confirmed with its payload's place, and the payload can be read there. -/
def Obligations.MatchingResponseIsConfirmed : Prop :=
  ∀ (cmd : Byte) (data reply : List Byte) (pre : Vector Byte 8) (s : State),
    s.params.legal = true → mayBuild data s → cmd.toNat < 0x80 → (cmd = 0x03 ∨ reply = []) →
    reply.length ≤ s.params.maxFrameLen - 17 →
    ∃ t, run ([.txBuild cmd data, .rxStart]
          ++ (wireFrame pre s.ownAddr s.slave s.seq cmd reply).map Instr.rxByte ++ [.rxConfirm]) s = some t
      ∧ t.rxState = .done
      ∧ t.result = some ⟨.ok, .word (BitVec.ofNat 64 (15 * 4294967296 + reply.length))⟩
      ∧ ∀ k, k < reply.length → Memory.read t.rxBuf (15 + k) = reply[k]?

/-- R98, R232: the exception round trip: a 17-byte response whose command byte is the request's with bit 0x80 set, with
any sequence number, is the negative acknowledge. -/
def Obligations.ExceptionResponseIsANack : Prop :=
  ∀ (cmd : Byte) (data : List Byte) (seq : Word16) (pre : Vector Byte 8) (s : State),
    s.params.legal = true → mayBuild data s →
    ∃ t, run ([.txBuild cmd data, .rxStart]
          ++ (wireFrame pre s.ownAddr s.slave seq (cmd ||| 0x80) []).map Instr.rxByte ++ [.rxConfirm]) s = some t
      ∧ t.rxState = .done ∧ t.result = some ⟨.excNack, .none⟩

/-! ### The invariant -/

/-- R32, R51: the invariant holds right after reset. It includes R5's constraints on the OPEN parameters. -/
def Obligations.InvariantHoldsAtReset : Prop := State.reset.Inv

/-- R32, R51, which the spec marks as derived: every step keeps the invariant. -/
def Obligations.StepKeepsTheInvariant : Prop :=
  ∀ s t : State, s.Inv → step s = .next t → t.Inv

/-- R250: the block reports every error as a status code, "never by a trap, an interrupt or a stuck state": from a state
that meets the invariant no step faults, and none is refused but for bytes that are no input. The faults are the model's
(DEDUCED: notes/assumptions/10.md), and so is the refusal of such bytes (DESIGN CHOICE: notes/assumptions/12.md). -/
def Obligations.NoStepFaultsUnderTheInvariant : Prop :=
  ∀ s : State, s.Inv → s.stepSafe ∧ ∀ r, step s = .refused r → ∃ e, r = .undecodable e

/-- R51, its last clause, which the spec marks as derived: under the invariant a cell holds a value exactly below
`RX_LEN`. -/
def Obligations.CellsHoldValuesExactlyBelowTheLength : Prop :=
  ∀ s : State, s.Inv → ∀ a, (Memory.read s.rxBuf a).isSome = true ↔ a < s.rxLen.toNat
end

