-- ==== Sys2Proof/Laws/Crc.lean ====
section
/-! SUPPORT. The CRC-16 function (spec/41_crc.md R150, R151) as one fold, what its step loses, and the trailer check. -/

namespace Sys2Proof.Machine

/-- R151 with `CRC_XOROUT` 0: `crc16` is the fold of `crc_step`. -/
theorem crc16_eq_foldl (l : List Byte) : crc16 l = l.foldl crcStep 0xFFFF := by
  show _ ^^^ (0#16) = _
  rw [BitVec.xor_zero]; rfl

/-- R151: the CRC of a list continued. -/
theorem crc16_append (l m : List Byte) : crc16 (l ++ m) = m.foldl crcStep (crc16 l) := by
  simp [crc16_eq_foldl]

/-- R150: one shift, bit by bit. -/
theorem crcShift_getLsbD (x : Word16) (i : Nat) :
    (crcShift 0xA001 x).getLsbD i = (x.getLsbD (i + 1) ^^ (x.getLsbD 0 && (0xA001#16).getLsbD i)) := by
  unfold crcShift
  cases x.getLsbD 0 <;> simp [BitVec.getLsbD_ushiftRight, Nat.add_comm]

/-- R150: the polynomial's top bit tells what was shifted out, so a shift loses nothing. -/
theorem crcShift_injective (x y : Word16) (h : crcShift 0xA001 x = crcShift 0xA001 y) : x = y := by
  have bits : ∀ i, (crcShift 0xA001 x).getLsbD i = (crcShift 0xA001 y).getLsbD i := fun i => by rw [h]
  have out : ∀ z : Word16, z.getLsbD 16 = false := fun z => BitVec.getLsbD_of_ge _ _ (by omega)
  have low : x.getLsbD 0 = y.getLsbD 0 := by
    have := bits 15
    rw [crcShift_getLsbD, crcShift_getLsbD] at this
    simpa [out] using this
  apply BitVec.eq_of_getLsbD_eq
  intro i hi
  cases i with
  | zero => exact low
  | succ i =>
    have := bits i
    rw [crcShift_getLsbD, crcShift_getLsbD, low] at this
    simpa using this

/-- R150: the eight shifts lose nothing. -/
theorem crcShifts_injective (n : Nat) (x y : Word16) (h : crcShifts 0xA001 n x = crcShifts 0xA001 n y) : x = y := by
  induction n generalizing x y with
  | zero => exact h
  | succ n ih => exact crcShift_injective _ _ (ih _ _ h)

/-- R199 on a frame whose last two bytes are `x` and `y`. -/
theorem integrityOk_append (body : List Byte) (x y : Byte) :
    integrityOk (body ++ [x, y]) = true ↔ x = lo8 (crc16 body) ∧ y = hi8 (crc16 body) := by
  simp [integrityOk, integrityOkWith, trlLen, crcWireOrder, trailer]

end Sys2Proof.Machine
end

