-- ==== Sys2Proof/Laws/Operands.lean ====
section
/-! SUPPORT. The operand helpers against the arithmetic of spec/00_scope.md R8. -/

namespace Sys2Proof.Machine

/-- R8: `be16(h, l) = h * 256 + l`. -/
theorem be16_toNat (h l : Byte) : (be16 h l).toNat = h.toNat * 256 + l.toNat := by
  have := l.isLt
  simp only [be16, BitVec.toNat_append]
  rw [← Nat.shiftLeft_add_eq_or_of_lt this, Nat.shiftLeft_eq]

@[simp] theorem hi8_be16 (h l : Byte) : hi8 (be16 h l) = h := by
  apply BitVec.eq_of_toNat_eq
  have := l.isLt
  have := h.isLt
  simp only [hi8, BitVec.extractLsb'_toNat, be16_toNat, Nat.shiftRight_eq_div_pow]
  omega

@[simp] theorem lo8_be16 (h l : Byte) : lo8 (be16 h l) = l := by
  apply BitVec.eq_of_toNat_eq
  have := l.isLt
  have := h.isLt
  simp only [lo8, BitVec.extractLsb'_toNat, be16_toNat, Nat.shiftRight_eq_div_pow]
  omega

theorem hi8_toNat (v : Word16) : (hi8 v).toNat = v.toNat / 256 := by
  have := v.isLt
  simp only [hi8, BitVec.extractLsb'_toNat, Nat.shiftRight_eq_div_pow]
  omega

theorem lo8_toNat (v : Word16) : (lo8 v).toNat = v.toNat % 256 := by
  simp [lo8, BitVec.extractLsb'_toNat]

/-- R72: a u16 field is read back as it was written. -/
@[simp] theorem be16_hi8_lo8 (v : Word16) : be16 (hi8 v) (lo8 v) = v := by
  apply BitVec.eq_of_toNat_eq
  rw [be16_toNat, hi8_toNat, lo8_toNat]
  omega

theorem be32_toNat (b3 b2 b1 b0 : Byte) :
    (be32 b3 b2 b1 b0).toNat = ((b3.toNat * 256 + b2.toNat) * 256 + b1.toNat) * 256 + b0.toNat := by
  have h2 := b2.isLt
  have h1 := b1.isLt
  have h0 := b0.isLt
  simp only [be32, BitVec.toNat_append]
  rw [← Nat.shiftLeft_add_eq_or_of_lt h2, ← Nat.shiftLeft_add_eq_or_of_lt h1,
    ← Nat.shiftLeft_add_eq_or_of_lt h0]
  simp only [Nat.shiftLeft_eq]

/-- R74: a u32 operand is read back as it was written. -/
theorem be32_bytes (w : Word32) :
    be32 (w.extractLsb' 24 8) (w.extractLsb' 16 8) (w.extractLsb' 8 8) (w.extractLsb' 0 8) = w := by
  apply BitVec.eq_of_toNat_eq
  have := w.isLt
  simp only [be32_toNat, BitVec.extractLsb'_toNat, Nat.shiftRight_eq_div_pow]
  omega

@[simp] theorem be32Bytes_length (w : Word32) : (be32Bytes w).length = 4 := rfl

@[simp] theorem be16Bytes_length (v : Word16) : (be16Bytes v).length = 2 := rfl

@[simp] theorem lengthBytes_length (n : Nat) : (lengthBytes n).length = 2 := rfl

/-- R104: a payload's length is read back from its length field. -/
theorem be16_lengthBytes (n : Nat) (h : n ≤ 65535) :
    (be16 (hi8 (BitVec.ofNat 16 n)) (lo8 (BitVec.ofNat 16 n))).toNat = n := by
  rw [be16_hi8_lo8, BitVec.toNat_ofNat]
  omega

/-- R8: "the largest value ... is below 2^63". -/
theorem timeoutTicks_toNat (sec usec : Word32) :
    (timeoutTicks sec usec).toNat = 1000000 * sec.toNat + usec.toNat := by
  have := sec.isLt
  have := usec.isLt
  rw [timeoutTicks, BitVec.toNat_ofNat]
  omega

/-- A u32 counter that is not 0, counted down. -/
theorem toNat_pred32 (x : Word32) (h : x.toNat ≠ 0) : (x - 1).toNat = x.toNat - 1 := by
  have := x.isLt
  show (x - 1#32).toNat = _
  simp only [BitVec.toNat_sub, BitVec.toNat_ofNat]
  omega

/-- A u64 counter that is not 0, counted down. -/
theorem toNat_pred64 (x : Word64) (h : x.toNat ≠ 0) : (x - 1).toNat = x.toNat - 1 := by
  have := x.isLt
  show (x - 1#64).toNat = _
  simp only [BitVec.toNat_sub, BitVec.toNat_ofNat]
  omega

/-- A u32 counter that does not wrap, counted up. -/
theorem toNat_succ32 (x : Word32) (h : x.toNat < 4294967295) : (x + 1).toNat = x.toNat + 1 := by
  show (x + 1#32).toNat = _
  simp only [BitVec.toNat_add, BitVec.toNat_ofNat]
  omega

/-- A u32 is 0 exactly where its number is. -/
theorem eq_zero32 (x : Word32) : x = 0 ↔ x.toNat = 0 := by
  rw [← BitVec.toNat_inj]; rfl

/-- A u64 is 0 exactly where its number is. -/
theorem eq_zero64 (x : Word64) : x = 0 ↔ x.toNat = 0 := by
  rw [← BitVec.toNat_inj]; rfl

/-- R37: "the all-zero pair ... means the byte timeout is disabled". -/
theorem timeoutTicks_eq_zero (sec usec : Word32) : timeoutTicks sec usec = 0 ↔ sec = 0 ∧ usec = 0 := by
  rw [eq_zero64, timeoutTicks_toNat, eq_zero32, eq_zero32]
  omega

end Sys2Proof.Machine
end

