-- ==== Sys2Proof/Laws/Decode.lean ====
section
/-! SUPPORT. The operand formats of spec/30_encoding.md R104 read back what the encoder writes, and the row of every opcode
byte. -/

namespace Sys2Proof

open Machine

/-- R104, R107: format H2. -/
theorem formatH2_bytes (make : Word32 → Word32 → Instr) (sec usec : Word32) (rest : List Byte) :
    formatH2 make (be32Bytes sec ++ be32Bytes usec ++ rest) = .ok (make sec usec, rest) := by
  simp [formatH2, be32Bytes, be32_bytes]

/-- R104, R107: format H4. -/
theorem formatH4_bytes (make : Word32 → Instr) (i : Word32) (rest : List Byte) :
    formatH4 make (be32Bytes i ++ rest) = .ok (make i, rest) := by
  simp [formatH4, be32Bytes, be32_bytes]

/-- R104, R107: format H3: "the data bytes are exactly the n bytes after nl". -/
theorem formatH3_bytes (make : Byte → List Byte → Instr) (cmd : Byte) (data rest : List Byte)
    (h : data.length ≤ 65535) :
    formatH3 make (cmd :: (lengthBytes data.length ++ data) ++ rest) = .ok (make cmd data, rest) := by
  have hn : data.length % 65536 = data.length := by omega
  simp [formatH3, lengthBytes, be16Bytes, hn]

/-- R105: an opcode byte within a range of the table belongs to that range's row. -/
theorem hostRow_illegal (op : Byte) :
    (op.within 0x06 0x07 → hostRow op = some (.illegal .from06)) ∧
    (op.within 0x08 0x0F → hostRow op = some (.illegal .from08)) ∧
    (op.within 0x12 0x13 → hostRow op = some (.illegal .from12)) ∧
    (op.within 0x14 0x17 → hostRow op = some (.illegal .from14)) ∧
    (op.within 0x18 0x1F → hostRow op = some (.illegal .from18)) ∧
    (op.within 0x22 0x23 → hostRow op = some (.illegal .from22)) ∧
    (op.within 0x24 0x27 → hostRow op = some (.illegal .from24)) ∧
    (op.within 0x28 0x2F → hostRow op = some (.illegal .from28)) ∧
    (op.within 0x34 0x37 → hostRow op = some (.illegal .from34)) ∧
    (op.within 0x38 0x3F → hostRow op = some (.illegal .from38)) ∧
    (op.within 0x40 0x7F → hostRow op = some (.illegal .from40)) ∧
    (op.within 0x80 0xFF → hostRow op = some (.illegal .from80)) := by
  revert op; decide +kernel

/-- R105: every opcode byte belongs to a row. -/
theorem hostRow_isSome (op : Byte) : (hostRow op).isSome = true := by
  revert op; decide +kernel

/-- R104, R105: the decoder reads `TX_BUILD` from its bytes, whatever name its command byte has. -/
theorem decode_txBuildBytes (cmd : Byte) (data rest : List Byte) (h : data.length ≤ 65535) :
    decode .host (txBuildBytes cmd data ++ rest) = .ok (.txBuild cmd data, rest) := by
  have hr : hostRow 0x20 = some .txBuild := by decide
  change decodeHost (0x20 :: (cmd :: (lengthBytes data.length ++ data) ++ rest)) = _
  rw [decodeHost, hr]
  exact formatH3_bytes .txBuild cmd data rest h

/-- R47: taking the operation an input is leaves its port and its bytes as they are. -/
theorem core_portOf_encode (i : Instr) : portOf i.core = portOf i ∧ encode i.core = encode i := by
  cases i <;> exact ⟨rfl, rfl⟩

end Sys2Proof
end

