-- ==== Sys2Proof/Laws/Memory.lean ====
section
/-! SUPPORT. The laws of the receive buffer (spec/20_memory.md R70, R71, R79) and its canonical form. -/

namespace Sys2Proof.Machine

/-- R79: a read gives the value of the last write. -/
theorem read_write_same (m : List Host.Cell) (a : Nat) (b : Byte) : Memory.read (Memory.write m a b) a = some b := by
  induction m with
  | nil => simp [Memory.write, Memory.read]
  | cons x m ih =>
    obtain ⟨k, c⟩ := x
    unfold Memory.write
    split
    · simp [Memory.read]
    · split
      · simp [Memory.read]
      · next h => simp [Memory.read, ih, Ne.symm h]

/-- R71: a write leaves every other offset alone. -/
theorem read_write_other (m : List Host.Cell) (a c : Nat) (b : Byte) (h : c ≠ a) :
    Memory.read (Memory.write m a b) c = Memory.read m c := by
  induction m with
  | nil => simp [Memory.write, Memory.read, h.symm]
  | cons x m ih =>
    obtain ⟨k, d⟩ := x
    unfold Memory.write
    split
    · simp [Memory.read, h.symm]
    · split
      · next e => subst e; simp [Memory.read, h.symm]
      · simp [Memory.read, ih]

/-- A write puts no offset before the ones that were there but its own. -/
theorem write_below (m : List Host.Cell) (a k : Nat) (b : Byte) (ha : k < a) (hm : ∀ x ∈ m, k < x.1) :
    ∀ x ∈ Memory.write m a b, k < x.1 := by
  induction m with
  | nil => simp [Memory.write, ha]
  | cons y m ih =>
    obtain ⟨j, c⟩ := y
    have hj : k < j := hm (j, c) (by simp)
    have hm' : ∀ x ∈ m, k < x.1 := fun x hx => hm x (by simp [hx])
    unfold Memory.write
    split
    · intro x hx
      simp only [List.mem_cons] at hx
      rcases hx with rfl | rfl | hx
      exacts [ha, hj, hm' x hx]
    · split
      · intro x hx
        simp only [List.mem_cons] at hx
        rcases hx with rfl | hx
        exacts [ha, hm' x hx]
      · intro x hx
        simp only [List.mem_cons] at hx
        rcases hx with rfl | hx
        exacts [hj, ih hm' x hx]

/-- A write keeps the canonical form. -/
theorem write_wf (m : List Host.Cell) (a : Nat) (b : Byte) (h : Memory.wf m) : Memory.wf (Memory.write m a b) := by
  induction m with
  | nil => simp [Memory.write, Memory.wf]
  | cons y m ih =>
    obtain ⟨k, c⟩ := y
    obtain ⟨hk, hm⟩ := List.pairwise_cons.1 h
    unfold Memory.write
    split
    · next hak =>
      refine List.pairwise_cons.2 ⟨?_, h⟩
      intro x hx
      simp only [List.mem_cons] at hx
      rcases hx with rfl | hx
      exacts [hak, Nat.lt_trans hak (hk x hx)]
    · split
      · next e => subst e; exact List.pairwise_cons.2 ⟨hk, hm⟩
      · exact List.pairwise_cons.2 ⟨write_below m a k b (by omega) hk, ih hm⟩

/-- Clearing gives the canonical form. -/
theorem cleared_wf : Memory.wf Memory.cleared := List.Pairwise.nil

/-- R42: the buffer right after reset is in canonical form. -/
theorem reset_memory_wf : Memory.wf State.reset.rxBuf := cleared_wf

/-- R71: a cleared cell holds no value. -/
@[simp] theorem read_cleared (a : Nat) : Memory.read Memory.cleared a = none := rfl

/-- A list of cells at rising offsets is in canonical form. -/
theorem wf_of_offsets (m : List Host.Cell) (n : Nat) (h : m.map Prod.fst = List.range n) : Memory.wf m := by
  have hp : (m.map Prod.fst).Pairwise (· < ·) := by rw [h]; exact List.pairwise_lt_range
  exact List.pairwise_map.1 hp

/-- Writing past every offset appends. -/
theorem write_append (m : List Host.Cell) (a : Nat) (b : Byte) (h : ∀ x ∈ m, x.1 < a) :
    Memory.write m a b = m ++ [(a, b)] := by
  induction m with
  | nil => rfl
  | cons y m ih =>
    obtain ⟨k, c⟩ := y
    have hk : k < a := h (k, c) (by simp)
    have : ¬ a < k := by omega
    have : ¬ a = k := by omega
    simp [Memory.write, *, ih (fun x hx => h x (by simp [hx]))]

/-- The buffer's bytes in order, as cells from offset 0 on. -/
theorem write_next (m : List Host.Cell) (n : Nat) (b : Byte) (h : m.map Prod.fst = List.range n) :
    Memory.write m n b = m ++ [(n, b)] := by
  apply write_append
  intro x hx
  have : x.1 ∈ m.map Prod.fst := List.mem_map_of_mem hx
  simpa [h] using this

/-- Reading an appended cell, or one before it. -/
theorem read_append (m : List Host.Cell) (n a : Nat) (b : Byte) (h : ∀ x ∈ m, x.1 ≠ n) :
    Memory.read (m ++ [(n, b)]) a = if a = n then some b else Memory.read m a := by
  induction m with
  | nil => simp [Memory.read, eq_comm]
  | cons y m ih =>
    obtain ⟨k, c⟩ := y
    have hk : k ≠ n := h (k, c) (by simp)
    have ih' := ih (fun x hx => h x (by simp [hx]))
    simp only [List.cons_append, Memory.read, ih']
    by_cases e : k = a
    · subst e; simp [hk]
    · simp [e]

/-- Where the listed offsets are exactly those below `n`, the cell at `a` is the `a`-th entry. -/
theorem read_of_offsets (m : List Host.Cell) (n : Nat) (h : m.map Prod.fst = List.range n) (a : Nat) :
    Memory.read m a = (m.map Prod.snd)[a]? := by
  induction n generalizing m with
  | zero =>
    have : m = [] := by simpa using h
    subst this; rfl
  | succ n ih =>
    rw [List.range_succ] at h
    obtain ⟨m', l, rfl, h1, h2⟩ := List.map_eq_append_iff.1 h
    obtain ⟨x, rfl, hx⟩ : ∃ x, l = [x] ∧ x.1 = n := by
      cases l with
      | nil => simp at h2
      | cons x l =>
        cases l with
        | nil => exact ⟨x, rfl, by simpa using h2⟩
        | cons y l => simp at h2
    obtain ⟨k, b⟩ := x
    obtain rfl : k = n := hx
    have hlen : m'.length = k := by have := congrArg List.length h1; simpa using this
    have hne : ∀ x ∈ m', x.1 ≠ k := by
      intro x hx
      have : x.1 ∈ m'.map Prod.fst := List.mem_map_of_mem hx
      rw [h1] at this
      have := List.mem_range.1 this
      omega
    rw [read_append m' k a b hne, ih m' h1]
    simp only [List.map_append, List.map_cons, List.map_nil, List.getElem?_append, List.length_map, hlen]
    by_cases hlt : a < k
    · have : a ≠ k := by omega
      simp [hlt, this]
    · by_cases he : a = k
      · subst he; simp
      · have h3 : (m'.map Prod.snd)[a]? = none := by
          apply List.getElem?_eq_none
          simp only [List.length_map, hlen]; omega
        have h4 : ([b] : List Byte)[a - k]? = none := by
          apply List.getElem?_eq_none
          simp only [List.length_cons, List.length_nil]; omega
        simp [hlt, he, h3, h4]

/-- Reading a range gives the bytes of a list exactly where each offset of it reads as the list has it. -/
theorem readRange_eq_some (m : List Host.Cell) (a : Nat) (l : List Byte)
    (h : ∀ k, k < l.length → Memory.read m (a + k) = l[k]?) : Memory.readRange m a l.length = some l := by
  induction l generalizing a with
  | nil => rfl
  | cons b l ih =>
    have h0 := h 0 (by simp)
    have hs := ih (a + 1) (fun k hk => by
      have := h (k + 1) (by simpa using hk)
      rw [show a + 1 + k = a + (k + 1) by omega, this]; rfl)
    simp only [Nat.add_zero, List.getElem?_cons_zero] at h0
    simp [Memory.readRange, h0, hs]

end Sys2Proof.Machine
end

