-- ==== Sys2Proof/Laws/State.lean ====
section
/-! SUPPORT. One lemma per field of State for each shared update, so that no proof unfolds one. -/

namespace Sys2Proof.Machine

@[simp] theorem raise_slave (e : Status) (s : State) : (raise e s).slave = s.slave := rfl
@[simp] theorem raise_slaveValid (e : Status) (s : State) : (raise e s).slaveValid = s.slaveValid := rfl
@[simp] theorem raise_ownAddr (e : Status) (s : State) : (raise e s).ownAddr = s.ownAddr := rfl
@[simp] theorem raise_seq (e : Status) (s : State) : (raise e s).seq = s.seq := rfl
@[simp] theorem raise_respToSec (e : Status) (s : State) : (raise e s).respToSec = s.respToSec := rfl
@[simp] theorem raise_respToUsec (e : Status) (s : State) : (raise e s).respToUsec = s.respToUsec := rfl
@[simp] theorem raise_byteToSec (e : Status) (s : State) : (raise e s).byteToSec = s.byteToSec := rfl
@[simp] theorem raise_byteToUsec (e : Status) (s : State) : (raise e s).byteToUsec = s.byteToUsec := rfl
@[simp] theorem raise_crc (e : Status) (s : State) : (raise e s).crc = s.crc := rfl
@[simp] theorem raise_rxState (e : Status) (s : State) : (raise e s).rxState = s.rxState := rfl
@[simp] theorem raise_rxStatus (e : Status) (s : State) : (raise e s).rxStatus = s.rxStatus := rfl
@[simp] theorem raise_rxErrcode (e : Status) (s : State) : (raise e s).rxErrcode = s.rxErrcode := rfl
@[simp] theorem raise_rxBuf (e : Status) (s : State) : (raise e s).rxBuf = s.rxBuf := rfl
@[simp] theorem raise_rxLen (e : Status) (s : State) : (raise e s).rxLen = s.rxLen := rfl
@[simp] theorem raise_rxRemaining (e : Status) (s : State) : (raise e s).rxRemaining = s.rxRemaining := rfl
@[simp] theorem raise_timer (e : Status) (s : State) : (raise e s).timer = s.timer := rfl
@[simp] theorem raise_reqValid (e : Status) (s : State) : (raise e s).reqValid = s.reqValid := rfl
@[simp] theorem raise_reqDst (e : Status) (s : State) : (raise e s).reqDst = s.reqDst := rfl
@[simp] theorem raise_reqSrc (e : Status) (s : State) : (raise e s).reqSrc = s.reqSrc := rfl
@[simp] theorem raise_reqSeq (e : Status) (s : State) : (raise e s).reqSeq = s.reqSeq := rfl
@[simp] theorem raise_reqCmd (e : Status) (s : State) : (raise e s).reqCmd = s.reqCmd := rfl
@[simp] theorem raise_params (e : Status) (s : State) : (raise e s).params = s.params := rfl
@[simp] theorem raise_result (e : Status) (s : State) : (raise e s).result = some ⟨e, .none⟩ := rfl
@[simp] theorem raise_inputs (e : Status) (s : State) : (raise e s).inputs = s.inputs := rfl

@[simp] theorem answerWith_slave (v : Value) (s : State) : (answerWith v s).slave = s.slave := rfl
@[simp] theorem answerWith_slaveValid (v : Value) (s : State) : (answerWith v s).slaveValid = s.slaveValid := rfl
@[simp] theorem answerWith_ownAddr (v : Value) (s : State) : (answerWith v s).ownAddr = s.ownAddr := rfl
@[simp] theorem answerWith_seq (v : Value) (s : State) : (answerWith v s).seq = s.seq := rfl
@[simp] theorem answerWith_respToSec (v : Value) (s : State) : (answerWith v s).respToSec = s.respToSec := rfl
@[simp] theorem answerWith_respToUsec (v : Value) (s : State) : (answerWith v s).respToUsec = s.respToUsec := rfl
@[simp] theorem answerWith_byteToSec (v : Value) (s : State) : (answerWith v s).byteToSec = s.byteToSec := rfl
@[simp] theorem answerWith_byteToUsec (v : Value) (s : State) : (answerWith v s).byteToUsec = s.byteToUsec := rfl
@[simp] theorem answerWith_crc (v : Value) (s : State) : (answerWith v s).crc = s.crc := rfl
@[simp] theorem answerWith_rxState (v : Value) (s : State) : (answerWith v s).rxState = s.rxState := rfl
@[simp] theorem answerWith_rxStatus (v : Value) (s : State) : (answerWith v s).rxStatus = s.rxStatus := rfl
@[simp] theorem answerWith_rxErrcode (v : Value) (s : State) : (answerWith v s).rxErrcode = s.rxErrcode := rfl
@[simp] theorem answerWith_rxBuf (v : Value) (s : State) : (answerWith v s).rxBuf = s.rxBuf := rfl
@[simp] theorem answerWith_rxLen (v : Value) (s : State) : (answerWith v s).rxLen = s.rxLen := rfl
@[simp] theorem answerWith_rxRemaining (v : Value) (s : State) : (answerWith v s).rxRemaining = s.rxRemaining := rfl
@[simp] theorem answerWith_timer (v : Value) (s : State) : (answerWith v s).timer = s.timer := rfl
@[simp] theorem answerWith_reqValid (v : Value) (s : State) : (answerWith v s).reqValid = s.reqValid := rfl
@[simp] theorem answerWith_reqDst (v : Value) (s : State) : (answerWith v s).reqDst = s.reqDst := rfl
@[simp] theorem answerWith_reqSrc (v : Value) (s : State) : (answerWith v s).reqSrc = s.reqSrc := rfl
@[simp] theorem answerWith_reqSeq (v : Value) (s : State) : (answerWith v s).reqSeq = s.reqSeq := rfl
@[simp] theorem answerWith_reqCmd (v : Value) (s : State) : (answerWith v s).reqCmd = s.reqCmd := rfl
@[simp] theorem answerWith_params (v : Value) (s : State) : (answerWith v s).params = s.params := rfl
@[simp] theorem answerWith_result (v : Value) (s : State) : (answerWith v s).result = some ⟨.ok, v⟩ := rfl
@[simp] theorem answerWith_inputs (v : Value) (s : State) : (answerWith v s).inputs = s.inputs := rfl

@[simp] theorem answer_slave (s : State) : (answer s).slave = s.slave := rfl
@[simp] theorem answer_slaveValid (s : State) : (answer s).slaveValid = s.slaveValid := rfl
@[simp] theorem answer_ownAddr (s : State) : (answer s).ownAddr = s.ownAddr := rfl
@[simp] theorem answer_seq (s : State) : (answer s).seq = s.seq := rfl
@[simp] theorem answer_respToSec (s : State) : (answer s).respToSec = s.respToSec := rfl
@[simp] theorem answer_respToUsec (s : State) : (answer s).respToUsec = s.respToUsec := rfl
@[simp] theorem answer_byteToSec (s : State) : (answer s).byteToSec = s.byteToSec := rfl
@[simp] theorem answer_byteToUsec (s : State) : (answer s).byteToUsec = s.byteToUsec := rfl
@[simp] theorem answer_crc (s : State) : (answer s).crc = s.crc := rfl
@[simp] theorem answer_rxState (s : State) : (answer s).rxState = s.rxState := rfl
@[simp] theorem answer_rxStatus (s : State) : (answer s).rxStatus = s.rxStatus := rfl
@[simp] theorem answer_rxErrcode (s : State) : (answer s).rxErrcode = s.rxErrcode := rfl
@[simp] theorem answer_rxBuf (s : State) : (answer s).rxBuf = s.rxBuf := rfl
@[simp] theorem answer_rxLen (s : State) : (answer s).rxLen = s.rxLen := rfl
@[simp] theorem answer_rxRemaining (s : State) : (answer s).rxRemaining = s.rxRemaining := rfl
@[simp] theorem answer_timer (s : State) : (answer s).timer = s.timer := rfl
@[simp] theorem answer_reqValid (s : State) : (answer s).reqValid = s.reqValid := rfl
@[simp] theorem answer_reqDst (s : State) : (answer s).reqDst = s.reqDst := rfl
@[simp] theorem answer_reqSrc (s : State) : (answer s).reqSrc = s.reqSrc := rfl
@[simp] theorem answer_reqSeq (s : State) : (answer s).reqSeq = s.reqSeq := rfl
@[simp] theorem answer_reqCmd (s : State) : (answer s).reqCmd = s.reqCmd := rfl
@[simp] theorem answer_params (s : State) : (answer s).params = s.params := rfl
@[simp] theorem answer_result (s : State) : (answer s).result = some ⟨.ok, .none⟩ := rfl
@[simp] theorem answer_inputs (s : State) : (answer s).inputs = s.inputs := rfl

@[simp] theorem silent_slave (s : State) : (silent s).slave = s.slave := rfl
@[simp] theorem silent_slaveValid (s : State) : (silent s).slaveValid = s.slaveValid := rfl
@[simp] theorem silent_ownAddr (s : State) : (silent s).ownAddr = s.ownAddr := rfl
@[simp] theorem silent_seq (s : State) : (silent s).seq = s.seq := rfl
@[simp] theorem silent_respToSec (s : State) : (silent s).respToSec = s.respToSec := rfl
@[simp] theorem silent_respToUsec (s : State) : (silent s).respToUsec = s.respToUsec := rfl
@[simp] theorem silent_byteToSec (s : State) : (silent s).byteToSec = s.byteToSec := rfl
@[simp] theorem silent_byteToUsec (s : State) : (silent s).byteToUsec = s.byteToUsec := rfl
@[simp] theorem silent_crc (s : State) : (silent s).crc = s.crc := rfl
@[simp] theorem silent_rxState (s : State) : (silent s).rxState = s.rxState := rfl
@[simp] theorem silent_rxStatus (s : State) : (silent s).rxStatus = s.rxStatus := rfl
@[simp] theorem silent_rxErrcode (s : State) : (silent s).rxErrcode = s.rxErrcode := rfl
@[simp] theorem silent_rxBuf (s : State) : (silent s).rxBuf = s.rxBuf := rfl
@[simp] theorem silent_rxLen (s : State) : (silent s).rxLen = s.rxLen := rfl
@[simp] theorem silent_rxRemaining (s : State) : (silent s).rxRemaining = s.rxRemaining := rfl
@[simp] theorem silent_timer (s : State) : (silent s).timer = s.timer := rfl
@[simp] theorem silent_reqValid (s : State) : (silent s).reqValid = s.reqValid := rfl
@[simp] theorem silent_reqDst (s : State) : (silent s).reqDst = s.reqDst := rfl
@[simp] theorem silent_reqSrc (s : State) : (silent s).reqSrc = s.reqSrc := rfl
@[simp] theorem silent_reqSeq (s : State) : (silent s).reqSeq = s.reqSeq := rfl
@[simp] theorem silent_reqCmd (s : State) : (silent s).reqCmd = s.reqCmd := rfl
@[simp] theorem silent_params (s : State) : (silent s).params = s.params := rfl
@[simp] theorem silent_result (s : State) : (silent s).result = none := rfl
@[simp] theorem silent_inputs (s : State) : (silent s).inputs = s.inputs := rfl

@[simp] theorem finish_slave (e : Status) (s : State) : (finish e s).slave = s.slave := rfl
@[simp] theorem finish_slaveValid (e : Status) (s : State) : (finish e s).slaveValid = s.slaveValid := rfl
@[simp] theorem finish_ownAddr (e : Status) (s : State) : (finish e s).ownAddr = s.ownAddr := rfl
@[simp] theorem finish_seq (e : Status) (s : State) : (finish e s).seq = s.seq := rfl
@[simp] theorem finish_respToSec (e : Status) (s : State) : (finish e s).respToSec = s.respToSec := rfl
@[simp] theorem finish_respToUsec (e : Status) (s : State) : (finish e s).respToUsec = s.respToUsec := rfl
@[simp] theorem finish_byteToSec (e : Status) (s : State) : (finish e s).byteToSec = s.byteToSec := rfl
@[simp] theorem finish_byteToUsec (e : Status) (s : State) : (finish e s).byteToUsec = s.byteToUsec := rfl
@[simp] theorem finish_crc (e : Status) (s : State) : (finish e s).crc = s.crc := rfl
@[simp] theorem finish_rxState (e : Status) (s : State) : (finish e s).rxState = if e = .ok then .done else .error := rfl
@[simp] theorem finish_rxStatus (e : Status) (s : State) : (finish e s).rxStatus = e := rfl
@[simp] theorem finish_rxErrcode (e : Status) (s : State) : (finish e s).rxErrcode = s.rxErrcode := rfl
@[simp] theorem finish_rxBuf (e : Status) (s : State) : (finish e s).rxBuf = s.rxBuf := rfl
@[simp] theorem finish_rxLen (e : Status) (s : State) : (finish e s).rxLen = s.rxLen := rfl
@[simp] theorem finish_rxRemaining (e : Status) (s : State) : (finish e s).rxRemaining = s.rxRemaining := rfl
@[simp] theorem finish_timer (e : Status) (s : State) : (finish e s).timer = s.timer := rfl
@[simp] theorem finish_reqValid (e : Status) (s : State) : (finish e s).reqValid = s.reqValid := rfl
@[simp] theorem finish_reqDst (e : Status) (s : State) : (finish e s).reqDst = s.reqDst := rfl
@[simp] theorem finish_reqSrc (e : Status) (s : State) : (finish e s).reqSrc = s.reqSrc := rfl
@[simp] theorem finish_reqSeq (e : Status) (s : State) : (finish e s).reqSeq = s.reqSeq := rfl
@[simp] theorem finish_reqCmd (e : Status) (s : State) : (finish e s).reqCmd = s.reqCmd := rfl
@[simp] theorem finish_params (e : Status) (s : State) : (finish e s).params = s.params := rfl
@[simp] theorem finish_result (e : Status) (s : State) : (finish e s).result = s.result := rfl
@[simp] theorem finish_inputs (e : Status) (s : State) : (finish e s).inputs = s.inputs := rfl

@[simp] theorem rearm_slave (s : State) : (rearm s).slave = s.slave := rfl
@[simp] theorem rearm_slaveValid (s : State) : (rearm s).slaveValid = s.slaveValid := rfl
@[simp] theorem rearm_ownAddr (s : State) : (rearm s).ownAddr = s.ownAddr := rfl
@[simp] theorem rearm_seq (s : State) : (rearm s).seq = s.seq := rfl
@[simp] theorem rearm_respToSec (s : State) : (rearm s).respToSec = s.respToSec := rfl
@[simp] theorem rearm_respToUsec (s : State) : (rearm s).respToUsec = s.respToUsec := rfl
@[simp] theorem rearm_byteToSec (s : State) : (rearm s).byteToSec = s.byteToSec := rfl
@[simp] theorem rearm_byteToUsec (s : State) : (rearm s).byteToUsec = s.byteToUsec := rfl
@[simp] theorem rearm_crc (s : State) : (rearm s).crc = s.crc := rfl
@[simp] theorem rearm_rxState (s : State) : (rearm s).rxState = s.rxState := rfl
@[simp] theorem rearm_rxStatus (s : State) : (rearm s).rxStatus = s.rxStatus := rfl
@[simp] theorem rearm_rxErrcode (s : State) : (rearm s).rxErrcode = s.rxErrcode := rfl
@[simp] theorem rearm_rxBuf (s : State) : (rearm s).rxBuf = s.rxBuf := rfl
@[simp] theorem rearm_rxLen (s : State) : (rearm s).rxLen = s.rxLen := rfl
@[simp] theorem rearm_rxRemaining (s : State) : (rearm s).rxRemaining = s.rxRemaining := rfl
@[simp] theorem rearm_timer (s : State) : (rearm s).timer = if byteTicks s = 0 then s.timer else byteTicks s := rfl
@[simp] theorem rearm_reqValid (s : State) : (rearm s).reqValid = s.reqValid := rfl
@[simp] theorem rearm_reqDst (s : State) : (rearm s).reqDst = s.reqDst := rfl
@[simp] theorem rearm_reqSrc (s : State) : (rearm s).reqSrc = s.reqSrc := rfl
@[simp] theorem rearm_reqSeq (s : State) : (rearm s).reqSeq = s.reqSeq := rfl
@[simp] theorem rearm_reqCmd (s : State) : (rearm s).reqCmd = s.reqCmd := rfl
@[simp] theorem rearm_params (s : State) : (rearm s).params = s.params := rfl
@[simp] theorem rearm_result (s : State) : (rearm s).result = s.result := rfl
@[simp] theorem rearm_inputs (s : State) : (rearm s).inputs = s.inputs := rfl

@[simp] theorem startReception_slave (s : State) : (startReception s).slave = s.slave := rfl
@[simp] theorem startReception_slaveValid (s : State) : (startReception s).slaveValid = s.slaveValid := rfl
@[simp] theorem startReception_ownAddr (s : State) : (startReception s).ownAddr = s.ownAddr := rfl
@[simp] theorem startReception_seq (s : State) : (startReception s).seq = s.seq := rfl
@[simp] theorem startReception_respToSec (s : State) : (startReception s).respToSec = s.respToSec := rfl
@[simp] theorem startReception_respToUsec (s : State) : (startReception s).respToUsec = s.respToUsec := rfl
@[simp] theorem startReception_byteToSec (s : State) : (startReception s).byteToSec = s.byteToSec := rfl
@[simp] theorem startReception_byteToUsec (s : State) : (startReception s).byteToUsec = s.byteToUsec := rfl
@[simp] theorem startReception_crc (s : State) : (startReception s).crc = s.crc := rfl
@[simp] theorem startReception_rxState (s : State) : (startReception s).rxState = .header := rfl
@[simp] theorem startReception_rxStatus (s : State) : (startReception s).rxStatus = .none := rfl
@[simp] theorem startReception_rxErrcode (s : State) : (startReception s).rxErrcode = 0 := rfl
@[simp] theorem startReception_rxBuf (s : State) : (startReception s).rxBuf = [] := rfl
@[simp] theorem startReception_rxLen (s : State) : (startReception s).rxLen = 0 := rfl
@[simp] theorem startReception_rxRemaining (s : State) : (startReception s).rxRemaining = 15 := rfl
@[simp] theorem startReception_timer (s : State) : (startReception s).timer = respTicks s := rfl
@[simp] theorem startReception_reqValid (s : State) : (startReception s).reqValid = s.reqValid := rfl
@[simp] theorem startReception_reqDst (s : State) : (startReception s).reqDst = s.reqDst := rfl
@[simp] theorem startReception_reqSrc (s : State) : (startReception s).reqSrc = s.reqSrc := rfl
@[simp] theorem startReception_reqSeq (s : State) : (startReception s).reqSeq = s.reqSeq := rfl
@[simp] theorem startReception_reqCmd (s : State) : (startReception s).reqCmd = s.reqCmd := rfl
@[simp] theorem startReception_params (s : State) : (startReception s).params = s.params := rfl
@[simp] theorem startReception_result (s : State) : (startReception s).result = s.result := rfl
@[simp] theorem startReception_inputs (s : State) : (startReception s).inputs = s.inputs := rfl

@[simp] theorem resetOf_slave (p : Params) : (State.resetOf p).slave = 0 := rfl
@[simp] theorem resetOf_slaveValid (p : Params) : (State.resetOf p).slaveValid = false := rfl
@[simp] theorem resetOf_ownAddr (p : Params) : (State.resetOf p).ownAddr = p.ownAddrReset := rfl
@[simp] theorem resetOf_seq (p : Params) : (State.resetOf p).seq = 0 := rfl
@[simp] theorem resetOf_respToSec (p : Params) : (State.resetOf p).respToSec = p.respToReset.sec := rfl
@[simp] theorem resetOf_respToUsec (p : Params) : (State.resetOf p).respToUsec = p.respToReset.usec := rfl
@[simp] theorem resetOf_byteToSec (p : Params) : (State.resetOf p).byteToSec = p.byteToReset.sec := rfl
@[simp] theorem resetOf_byteToUsec (p : Params) : (State.resetOf p).byteToUsec = p.byteToReset.usec := rfl
@[simp] theorem resetOf_crc (p : Params) : (State.resetOf p).crc = 0xFFFF := rfl
@[simp] theorem resetOf_rxState (p : Params) : (State.resetOf p).rxState = .idle := rfl
@[simp] theorem resetOf_rxStatus (p : Params) : (State.resetOf p).rxStatus = .none := rfl
@[simp] theorem resetOf_rxErrcode (p : Params) : (State.resetOf p).rxErrcode = 0 := rfl
@[simp] theorem resetOf_rxBuf (p : Params) : (State.resetOf p).rxBuf = [] := rfl
@[simp] theorem resetOf_rxLen (p : Params) : (State.resetOf p).rxLen = 0 := rfl
@[simp] theorem resetOf_rxRemaining (p : Params) : (State.resetOf p).rxRemaining = 0 := rfl
@[simp] theorem resetOf_timer (p : Params) : (State.resetOf p).timer = 0 := rfl
@[simp] theorem resetOf_reqValid (p : Params) : (State.resetOf p).reqValid = false := rfl
@[simp] theorem resetOf_reqDst (p : Params) : (State.resetOf p).reqDst = 0 := rfl
@[simp] theorem resetOf_reqSrc (p : Params) : (State.resetOf p).reqSrc = 0 := rfl
@[simp] theorem resetOf_reqSeq (p : Params) : (State.resetOf p).reqSeq = 0 := rfl
@[simp] theorem resetOf_reqCmd (p : Params) : (State.resetOf p).reqCmd = 0 := rfl
@[simp] theorem resetOf_params (p : Params) : (State.resetOf p).params = p := rfl
@[simp] theorem resetOf_result (p : Params) : (State.resetOf p).result = none := rfl
@[simp] theorem resetOf_inputs (p : Params) : (State.resetOf p).inputs = [] := rfl

@[simp] theorem raise_busy (e : Status) (s : State) : (raise e s).busy = s.busy := rfl
@[simp] theorem answerWith_busy (v : Value) (s : State) : (answerWith v s).busy = s.busy := rfl
@[simp] theorem answer_busy (s : State) : (answer s).busy = s.busy := rfl
@[simp] theorem silent_busy (s : State) : (silent s).busy = s.busy := rfl
@[simp] theorem rearm_busy (s : State) : (rearm s).busy = s.busy := rfl
@[simp] theorem startReception_busy (s : State) : (startReception s).busy = true := rfl
@[simp] theorem resetOf_busy (p : Params) : (State.resetOf p).busy = false := rfl
@[simp] theorem finish_busy (e : Status) (s : State) : (finish e s).busy = false := by cases e <;> rfl

/-- R39: being busy, said by the state. -/
theorem busy_iff (s : State) : s.busy = true ↔ s.rxState = .header ∨ s.rxState = .payload := by
  unfold State.busy; cases s.rxState <;> simp [RxState.receiving]

/-- R39: not being busy, said by the state. -/
theorem not_busy_iff (s : State) :
    s.busy = false ↔ s.rxState = .idle ∨ s.rxState = .done ∨ s.rxState = .error := by
  unfold State.busy; cases s.rxState <;> simp [RxState.receiving]

end Sys2Proof.Machine
end

