-- ==== Sys2Proof/Laws/Ops.lean ====
section
/-! SUPPORT. For each shared operation, once, everything it can do. -/

namespace Sys2Proof.Machine

/-- `outcome` answers a next state exactly for a state. -/
@[simp] theorem outcome_next (x : Except Fault State) (t : State) : outcome x = .next t ↔ x = .ok t := by
  cases x <;> simp [outcome]

/-- `outcome` faults exactly for a fault. -/
@[simp] theorem outcome_fault (x : Except Fault State) (f : Fault) : outcome x = .fault f ↔ x = .error f := by
  cases x <;> simp [outcome]

/-- `outcome` never refuses. -/
@[simp] theorem outcome_refused (x : Except Fault State) (r : Refusal) : outcome x ≠ .refused r := by
  cases x <;> simp [outcome]

/-- R196, R198: when a byte is stored, and what that changes. -/
theorem storeByte_ok (b : Byte) (s t : State) :
    storeByte b s = .ok t ↔
      s.rxLen.toNat < s.params.maxFrameLen ∧ s.rxRemaining ≠ 0 ∧
        t = { s with
          rxBuf := Memory.write s.rxBuf s.rxLen.toNat b
          rxLen := s.rxLen + 1
          rxRemaining := s.rxRemaining - 1 } := by
  unfold storeByte
  split
  · simp only [reduceCtorEq, false_iff]; omega
  · split
    · simp [*]
    · simp only [Except.ok.injEq]
      constructor
      · rintro rfl; exact ⟨by omega, by assumption, rfl⟩
      · rintro ⟨-, -, rfl⟩; rfl

/-- R192: re-arming with a disabled byte timeout leaves the timer alone. -/
theorem rearm_disabled (s : State) (h : byteTicks s = 0) : rearm s = s := by
  simp [rearm, h]

/-- R192: re-arming with an enabled byte timeout. -/
theorem rearm_enabled (s : State) (h : byteTicks s ≠ 0) : rearm s = { s with timer := byteTicks s } := by
  simp only [rearm, if_neg h]

/-- R91: the data length is known exactly where both of its bytes hold a value. -/
theorem dataLength_some (m : List Host.Cell) (n : Word16) :
    dataLength m = some n ↔ ∃ h l, Memory.read m 13 = some h ∧ Memory.read m 14 = some l ∧ n = be16 h l := by
  unfold dataLength
  cases Memory.read m 13 <;> cases Memory.read m 14 <;> simp [eq_comm]

/-- R197: the two ways a header completes. -/
theorem headerComplete_ok (s t : State) :
    headerComplete s = .ok t ↔
      ∃ n, dataLength s.rxBuf = some n ∧
        ((s.params.maxFrameLen < 17 + n.toNat ∧ t = finish .badData s) ∨
         (17 + n.toNat ≤ s.params.maxFrameLen ∧
           t = rearm { s with rxRemaining := BitVec.ofNat 32 (n.toNat + 2), rxState := .payload })) := by
  unfold headerComplete
  cases dataLength s.rxBuf with
  | none => simp
  | some n =>
    simp only [minFrame, trlLen, Option.some.injEq, exists_eq_left']
    by_cases h : s.params.maxFrameLen < 17 + n.toNat
    · have : ¬ 17 + n.toNat ≤ s.params.maxFrameLen := by omega
      simp [h, eq_comm]
    · have : 17 + n.toNat ≤ s.params.maxFrameLen := by omega
      simp [h, this, eq_comm]

/-- R198, R199: the two ways a frame completes. -/
theorem frameComplete_ok (s t : State) :
    frameComplete s = .ok t ↔
      ∃ f, Memory.readRange s.rxBuf 0 s.rxLen.toNat = some f ∧
        t = finish (if integrityOk f then .ok else .badCrc) s := by
  unfold frameComplete
  cases Memory.readRange s.rxBuf 0 s.rxLen.toNat with
  | none => simp
  | some f => simp only [Except.ok.injEq, Option.some.injEq, exists_eq_left']; exact eq_comm

/-- R200: the two ways a tick counts. -/
theorem countTick_ok (s t : State) :
    countTick s = .ok t ↔
      (s.timer = 1 ∧ t = finish .timeout { s with timer := 0 }) ∨
      (s.timer ≠ 0 ∧ s.timer ≠ 1 ∧ t = { s with timer := s.timer - 1 }) := by
  unfold countTick
  by_cases h0 : s.timer = 0
  · simp [h0]
  · by_cases h1 : s.timer = 1
    · simp only [h1, if_true]
      simp [eq_comm (a := t)]
    · simp only [if_false, Except.ok.injEq, h0, h1, ne_eq, not_false_iff, true_and, false_and, false_or]
      exact eq_comm

/-- R196: a byte in `HEADER`. -/
theorem headerByte_ok (b : Byte) (s t : State) :
    headerByte b s = .ok t ↔
      ∃ u, storeByte b s = .ok u ∧
        ((u.rxRemaining = 0 ∧ headerComplete u = .ok t) ∨ (u.rxRemaining ≠ 0 ∧ t = u)) := by
  unfold headerByte
  cases h : storeByte b s with
  | error f => simp
  | ok u =>
    by_cases hr : u.rxRemaining = 0
    · simp [hr]
    · simp only [if_false, Except.ok.injEq, exists_eq_left', hr, ne_eq, not_false_iff, true_and, false_and, false_or]
      exact eq_comm

/-- R198: a byte in `PAYLOAD`. -/
theorem payloadByte_ok (b : Byte) (s t : State) :
    payloadByte b s = .ok t ↔
      ∃ u, storeByte b s = .ok u ∧
        ((u.rxRemaining = 0 ∧ frameComplete u = .ok t) ∨ (u.rxRemaining ≠ 0 ∧ t = rearm u)) := by
  unfold payloadByte
  cases h : storeByte b s with
  | error f => simp
  | ok u =>
    by_cases hr : u.rxRemaining = 0
    · simp [hr]
    · simp only [if_false, Except.ok.injEq, exists_eq_left', hr, ne_eq, not_false_iff, true_and, false_and, false_or]
      exact eq_comm

/-- R173: the ways a build ends. -/
theorem buildRequest_cases (cmd : Byte) (data : List Byte) (s : State) :
    (s.busy = true ∧ buildRequest cmd data s = raise .busy s) ∨
    (s.busy = false ∧ s.params.maxFrameLen - 17 < data.length ∧ buildRequest cmd data s = raise .tooMuchData s) ∨
    (s.busy = false ∧ data.length ≤ s.params.maxFrameLen - 17 ∧ s.slaveValid = false ∧
      buildRequest cmd data s = raise .invalidArg s) ∨
    (s.busy = false ∧ data.length ≤ s.params.maxFrameLen - 17 ∧ s.slaveValid = true ∧
      buildRequest cmd data s =
        answerWith (.frame (requestFrame s cmd data))
          { s with
            reqValid := true
            reqDst := s.slave
            reqSrc := s.ownAddr
            reqSeq := s.seq
            reqCmd := cmd
            seq := s.seq + 1 }) := by
  unfold buildRequest
  simp only [minFrame]
  by_cases h1 : s.busy = true
  · simp [h1]
  · by_cases h2 : s.params.maxFrameLen - 17 < data.length
    · simp [h1, h2]
    · by_cases h3 : s.slaveValid = false
      · right; right; left
        simp [h1, h2, h3]; omega
      · right; right; right
        simp [h1, h2, h3]; omega

/-- R193: what is taken, and that everything before it is not. -/
theorem takeInput_some (a : Bool) (l : List Input) (t : Taken) (h : takeInput a l = some t) :
    l = t.before ++ t.chunk :: t.after ∧ takes a t.chunk = true ∧ ∀ x ∈ t.before, takes a x = false := by
  induction l generalizing t with
  | nil => simp [takeInput] at h
  | cons x l ih =>
    unfold takeInput at h
    split at h
    · next hx => cases h; exact ⟨rfl, hx, by simp⟩
    · next hx =>
      obtain ⟨u, hu, rfl⟩ := Option.map_eq_some_iff.1 h
      obtain ⟨h1, h2, h3⟩ := ih u hu
      refine ⟨by simp [h1], h2, ?_⟩
      intro y hy
      simp only [List.mem_cons] at hy
      rcases hy with rfl | hy
      exacts [by simpa using hx, h3 y hy]

/-- R193: nothing is taken exactly where nothing presented is accepted. -/
theorem takeInput_none (a : Bool) (l : List Input) : takeInput a l = none ↔ ∀ x ∈ l, takes a x = false := by
  induction l with
  | nil => simp [takeInput]
  | cons x l ih =>
    unfold takeInput
    split
    · next hx => simp [hx]
    · next hx => simp [ih, hx]

/-- R10: the ways a step gives a next state. -/
theorem step_next_cases (s s' : State) (h : step s = .next s') :
    (takeInput s.rxAccept s.inputs = none ∧ s' = s) ∨
    (∃ t i rest, takeInput s.rxAccept s.inputs = some t ∧ decode t.chunk.port t.chunk.bytes = .ok (i, rest) ∧
      exec i { s with inputs := t.remaining rest } = .next s') := by
  unfold step at h
  split at h
  · next h1 => cases h; exact .inl ⟨h1, rfl⟩
  · next t h1 =>
    split at h
    · cases h
    · next i rest h2 => exact .inr ⟨t, i, rest, h1, h2, h⟩

/-- R10: a step faults only where the meaning of the input it takes does. -/
theorem step_fault_cases (s : State) (f : Fault) (h : step s = .fault f) :
    ∃ t i rest, takeInput s.rxAccept s.inputs = some t ∧ decode t.chunk.port t.chunk.bytes = .ok (i, rest) ∧
      exec i { s with inputs := t.remaining rest } = .fault f := by
  unfold step at h
  split at h
  · cases h
  · next t h1 =>
    split at h
    · cases h
    · next i rest h2 => exact ⟨t, i, rest, h1, h2, h⟩

/-- R196, R198: the ways an accepted byte is taken. -/
theorem execRxByte_next (b : Byte) (s t : State) (h : execRxByte b s = .next t) :
    (s.busy = false ∧ t = s) ∨
    (s.rxState = .header ∧ ∃ u, headerByte b s = .ok u ∧ t = silent u) ∨
    (s.rxState = .payload ∧ ∃ u, payloadByte b s = .ok u ∧ t = silent u) := by
  unfold execRxByte receiveByte at h
  split at h
  · next hb =>
    have hb' : s.busy = true := hb
    rw [outcome_next] at h
    rcases (busy_iff s).1 hb' with hs | hs <;> simp only [hs] at h
    · cases hx : headerByte b s with
      | error f => rw [hx] at h; cases h
      | ok u => rw [hx] at h; cases h; exact .inr (.inl ⟨hs, u, rfl, rfl⟩)
    · cases hx : payloadByte b s with
      | error f => rw [hx] at h; cases h
      | ok u => rw [hx] at h; cases h; exact .inr (.inr ⟨hs, u, rfl, rfl⟩)
  · next hb => cases h; exact .inl ⟨by simpa [State.rxAccept] using hb, rfl⟩

/-- R196: a byte accepted in `HEADER`. -/
theorem execRxByte_header (b : Byte) (s u : State) (hs : s.rxState = .header) (h : headerByte b s = .ok u) :
    execRxByte b s = .next (silent u) := by
  have hb : s.rxAccept = true := (busy_iff s).2 (.inl hs)
  unfold execRxByte receiveByte
  rw [if_pos hb, hs]
  simp only [h]
  rfl

/-- R198: a byte accepted in `PAYLOAD`. -/
theorem execRxByte_payload (b : Byte) (s u : State) (hs : s.rxState = .payload) (h : payloadByte b s = .ok u) :
    execRxByte b s = .next (silent u) := by
  have hb : s.rxAccept = true := (busy_iff s).2 (.inr hs)
  unfold execRxByte receiveByte
  rw [if_pos hb, hs]
  simp only [h]
  rfl

/-- R200: a tick counted while the block is busy. -/
theorem execTick_busy (s u : State) (hb : s.busy = true) (h : countTick s = .ok u) :
    execTick s = .next (silent u) := by
  unfold execTick
  rw [if_pos hb, h]
  rfl

/-- R193: a byte the block does not accept. -/
theorem execRxByte_idle (b : Byte) (s : State) (hb : s.busy = false) : execRxByte b s = .next s := by
  have : s.rxAccept = false := hb
  simp [execRxByte, this]

/-- R200: a tick while the block is not busy. -/
theorem execTick_idle (s : State) (hb : s.busy = false) : execTick s = .next (silent s) := by
  simp [execTick, hb]

/-- R200: the ways a tick is taken. -/
theorem execTick_next (s t : State) (h : execTick s = .next t) :
    (s.busy = false ∧ t = silent s) ∨ (s.busy = true ∧ ∃ u, countTick s = .ok u ∧ t = silent u) := by
  unfold execTick at h
  split at h
  · next hb =>
    rw [outcome_next] at h
    cases hx : countTick s with
    | error f => rw [hx] at h; cases h
    | ok u => rw [hx] at h; cases h; exact .inr ⟨hb, u, rfl, rfl⟩
  · next hb => cases h; exact .inl ⟨by simpa using hb, rfl⟩

end Sys2Proof.Machine
end

