-- ==== Sys2Proof/Laws/Exec.lean ====
section
/-! SUPPORT. Everything an input can do, said once per kind of input: the provers cite these and unfold no meaning. -/

namespace Sys2Proof.Machine

/-- R10: taking two sequences of inputs one after the other. -/
theorem run_append (a b : List Instr) (s : State) : run (a ++ b) s = (run a s).bind (run b) := by
  induction a generalizing s with
  | nil => rfl
  | cons i a ih => simp only [List.cons_append, run]; split <;> simp [ih]

/-- R10: one input and then the others. -/
theorem run_cons (i : Instr) (is : List Instr) (s t : State) (h : exec i s = .next t) : run (i :: is) s = run is t := by
  simp [run, h]

/-- R196 to R199: everything a received byte can do. -/
theorem execRxByte_cases (b : Byte) (s t : State) (h : execRxByte b s = .next t) :
    (s.busy = false ∧ t = s) ∨
    (s.busy = true ∧ ∃ u, storeByte b s = .ok u ∧
      ((∃ e, (e = .ok ∨ e = .badCrc ∨ e = .badData) ∧ t = silent (finish e u)) ∨
        t = silent (rearm u) ∨
        t = silent u ∨
        ∃ r, t = silent (rearm { u with rxRemaining := r, rxState := .payload }))) := by
  rcases execRxByte_next _ _ _ h with h | ⟨hs, u, hu, rfl⟩ | ⟨hs, u, hu, rfl⟩
  · exact .inl h
  · right
    refine ⟨(busy_iff _).2 (.inl hs), ?_⟩
    obtain ⟨v, hv, ⟨_, h2⟩ | ⟨_, rfl⟩⟩ := (headerByte_ok _ _ _).1 hu
    · refine ⟨v, hv, ?_⟩
      obtain ⟨n, _, ⟨_, rfl⟩ | ⟨_, rfl⟩⟩ := (headerComplete_ok _ _).1 h2
      · exact .inl ⟨_, .inr (.inr rfl), rfl⟩
      · exact .inr (.inr (.inr ⟨_, rfl⟩))
    · exact ⟨_, hv, .inr (.inr (.inl rfl))⟩
  · right
    refine ⟨(busy_iff _).2 (.inr hs), ?_⟩
    obtain ⟨v, hv, ⟨_, h2⟩ | ⟨_, rfl⟩⟩ := (payloadByte_ok _ _ _).1 hu
    · refine ⟨v, hv, ?_⟩
      obtain ⟨n, _, rfl⟩ := (frameComplete_ok _ _).1 h2
      refine .inl ⟨_, ?_, rfl⟩
      split <;> simp
    · exact ⟨_, hv, .inr (.inl rfl)⟩

/-- R200: everything a tick can do. -/
theorem execTick_cases (s t : State) (h : execTick s = .next t) :
    (s.busy = false ∧ t = silent s) ∨
    (s.busy = true ∧ s.timer = 1 ∧ t = silent (finish .timeout { s with timer := 0 })) ∨
    (s.busy = true ∧ s.timer ≠ 0 ∧ s.timer ≠ 1 ∧ t = silent { s with timer := s.timer - 1 }) := by
  rcases execTick_next _ _ h with h | ⟨hb, u, hu, rfl⟩
  · exact .inl h
  · rcases (countTick_ok _ _).1 hu with ⟨h1, rfl⟩ | ⟨h1, h2, rfl⟩
    · exact .inr (.inl ⟨hb, h1, rfl⟩)
    · exact .inr (.inr ⟨hb, h1, h2, rfl⟩)

/-- What a host operation other than a build writes when it returns `OK`: nothing, or its own registers. -/
inductive HostUpdate (s : State) : Instr → State → Prop
  | nothing {i : Instr} : HostUpdate s i s
  | setSlave (a : Byte) : s.busy = false → HostUpdate s (.setSlave a) { s with slave := a, slaveValid := true }
  | setOwnAddr (a : Byte) : s.busy = false → HostUpdate s (.setOwnAddr a) { s with ownAddr := a }
  | setRespTimeout (sec usec : Word32) : s.busy = false →
      HostUpdate s (.setRespTimeout sec usec) { s with respToSec := sec, respToUsec := usec }
  | setByteTimeout (sec usec : Word32) : s.busy = false →
      HostUpdate s (.setByteTimeout sec usec) { s with byteToSec := sec, byteToUsec := usec }
  | crcInit : HostUpdate s .crcInit { s with crc := 0xFFFF }
  | crcUpdate (b : Byte) : HostUpdate s (.crcUpdate b) { s with crc := crcStep s.crc b }
  | rxStart : s.busy = false → HostUpdate s .rxStart (startReception s)

/-- R173, R174: the state after a build that succeeds. -/
def afterBuild (cmd : Byte) (data : List Byte) (s : State) : State :=
  answerWith (.frame (requestFrame s cmd data))
    { s with
      reqValid := true
      reqDst := s.slave
      reqSrc := s.ownAddr
      reqSeq := s.seq
      reqCmd := cmd
      seq := s.seq + 1 }

/-- R9: the operation is refused, with a status that is neither `OK` nor `NONE`. -/
def Refuses (s t : State) : Prop := ∃ e, e ≠ .ok ∧ e ≠ .none ∧ t = raise e s

/-- R173: the build succeeds, under R173's conditions. -/
def Builds (cmd : Byte) (data : List Byte) (s t : State) : Prop :=
  s.busy = false ∧ s.slaveValid = true ∧ data.length ≤ s.params.maxFrameLen - 17 ∧ t = afterBuild cmd data s

/-- R173: a build is refused or succeeds. -/
theorem buildRequest_refuses_or_builds (cmd : Byte) (data : List Byte) (s t : State)
    (h : .next (buildRequest cmd data s) = (.next t : Host.Outcome State Fault Refusal)) :
    Refuses s t ∨ Builds cmd data s t := by
  cases h
  rcases buildRequest_cases cmd data s with ⟨_, h⟩ | ⟨_, _, h⟩ | ⟨_, _, _, h⟩ | ⟨h1, h2, h3, h⟩ <;> rw [h]
  · exact .inl ⟨_, by decide, by decide, rfl⟩
  · exact .inl ⟨_, by decide, by decide, rfl⟩
  · exact .inl ⟨_, by decide, by decide, rfl⟩
  · exact .inr ⟨h1, h3, h2, rfl⟩

/-- R136: an illegal opcode is refused. -/
theorem refused_illegalOp (s t : State) (h : .next (raise .illegalOp s) = (.next t : Host.Outcome State Fault Refusal)) :
    Refuses s t := by
  cases h; exact ⟨_, by decide, by decide, rfl⟩

/-- R96, R97, R99: a command code's name runs as the `TX_BUILD` it spells. -/
theorem exec_core (i : Instr) (s : State) : exec i.core s = exec i s := by cases i <;> rfl

/-- Everything a host operation can do: it is refused, returns `OK` with its own registers written, or is a `TX_BUILD`
that succeeds. -/
theorem exec_host_cases (i : Instr) (s t : State) (hp : portOf i ≠ .event) (h : exec i s = .next t) :
    Refuses s t ∨ (∃ u v, HostUpdate s i u ∧ t = answerWith v u)
      ∨ ∃ cmd data, i.core = .txBuild cmd data ∧ Builds cmd data s t := by
  cases i <;> simp only [portOf, ne_eq, not_true, reduceCtorEq] at hp <;> simp only [exec] at h
  case txBuild c d => exact (buildRequest_refuses_or_builds _ d s t h).imp_right fun h => .inr ⟨_, d, rfl, h⟩
  case cmdSetColor d => exact (buildRequest_refuses_or_builds _ d s t h).imp_right fun h => .inr ⟨_, d, rfl, h⟩
  case cmdSetMode d => exact (buildRequest_refuses_or_builds _ d s t h).imp_right fun h => .inr ⟨_, d, rfl, h⟩
  case cmdOta d => exact (buildRequest_refuses_or_builds _ d s t h).imp_right fun h => .inr ⟨_, d, rfl, h⟩
  case cmdGetVersion d => exact (buildRequest_refuses_or_builds _ d s t h).imp_right fun h => .inr ⟨_, d, rfl, h⟩
  case cmdSetOutput d => exact (buildRequest_refuses_or_builds _ d s t h).imp_right fun h => .inr ⟨_, d, rfl, h⟩
  case cmdUnrecognized c d => exact (buildRequest_refuses_or_builds _ d s t h).imp_right fun h => .inr ⟨_, d, rfl, h⟩
  case cmdException c d => exact (buildRequest_refuses_or_builds _ d s t h).imp_right fun h => .inr ⟨_, d, rfl, h⟩
  case rxStart =>
    simp only [execRxStart] at h; split at h <;> cases h
    · exact .inl ⟨_, by decide, by decide, rfl⟩
    · exact .inr (.inl ⟨_, .none, .rxStart (by simpa using ‹¬ s.busy = true›), rfl⟩)
  case rxRead k =>
    unfold execRxRead at h; split at h
    · cases h; exact .inl ⟨_, by decide, by decide, rfl⟩
    · split at h <;> cases h; exact .inr (.inl ⟨_, _, .nothing, rfl⟩)
  case rxConfirm =>
    unfold execRxConfirm at h
    split at h
    · cases h; exact .inl ⟨_, by decide, by decide, rfl⟩
    · split at h
      · cases h; exact .inl ⟨_, by decide, by decide, rfl⟩
      · split at h <;> cases h
        unfold confirmResult; split
        · exact .inr (.inl ⟨_, _, .nothing, rfl⟩)
        · next e he =>
          refine .inl ⟨e, ?_, ?_, rfl⟩ <;> rintro rfl <;> unfold classify at he <;> split_ifs at he <;> cases he
  case readReg r =>
    simp only [execReadReg] at h; split at h <;> cases h
    · exact .inl ⟨_, by decide, by decide, rfl⟩
    · exact .inr (.inl ⟨_, _, .nothing, rfl⟩)
  case setSlave a =>
    simp only [execSetSlave] at h; split at h <;> cases h
    · exact .inl ⟨_, by decide, by decide, rfl⟩
    · exact .inr (.inl ⟨_, .none, .setSlave _ (by simpa using ‹¬ s.busy = true›), rfl⟩)
  case setOwnAddr a =>
    simp only [execSetOwnAddr] at h; split at h <;> cases h
    · exact .inl ⟨_, by decide, by decide, rfl⟩
    · exact .inr (.inl ⟨_, .none, .setOwnAddr _ (by simpa using ‹¬ s.busy = true›), rfl⟩)
  case setRespTimeout a b =>
    simp only [execSetRespTimeout] at h; cases h; split_ifs
    · exact .inl ⟨_, by decide, by decide, rfl⟩
    · exact .inl ⟨_, by decide, by decide, rfl⟩
    · exact .inl ⟨_, by decide, by decide, rfl⟩
    · exact .inr (.inl ⟨_, .none, .setRespTimeout _ _ (by simpa using ‹¬ s.busy = true›), rfl⟩)
  case setByteTimeout a b =>
    simp only [execSetByteTimeout] at h; cases h; split_ifs
    · exact .inl ⟨_, by decide, by decide, rfl⟩
    · exact .inl ⟨_, by decide, by decide, rfl⟩
    · exact .inr (.inl ⟨_, .none, .setByteTimeout _ _ (by simpa using ‹¬ s.busy = true›), rfl⟩)
  case crcInit => cases h; exact .inr (.inl ⟨_, .none, .crcInit, rfl⟩)
  case crcUpdate b => cases h; exact .inr (.inl ⟨_, .none, .crcUpdate b, rfl⟩)
  all_goals exact .inl (refused_illegalOp s t h)

end Sys2Proof.Machine
end

