-- ==== Sys2Proof/Laws/PerInstr.lean ====
section
/-! SUPPORT. The laws stated instruction by instruction, one lemma per constructor of `Instr`. -/

namespace Sys2Proof.Laws.Presented

open Machine

/-- While a reception is in progress the block takes the bytes of this input (R193). -/
def Statement (i : Instr) : Prop := takes true ⟨portOf i, encode i⟩ = true

theorem setSlave (a : Byte) : Statement (.setSlave a) := rfl
theorem setOwnAddr (a : Byte) : Statement (.setOwnAddr a) := rfl
theorem setRespTimeout (sec usec : Word32) : Statement (.setRespTimeout sec usec) := rfl
theorem setByteTimeout (sec usec : Word32) : Statement (.setByteTimeout sec usec) := rfl
theorem readReg (r : Byte) : Statement (.readReg r) := rfl
theorem crcInit : Statement (.crcInit) := rfl
theorem crcUpdate (b : Byte) : Statement (.crcUpdate b) := rfl
theorem txBuild (cmd : Byte) (data : List Byte) : Statement (.txBuild cmd data) := rfl
theorem rxStart : Statement (.rxStart) := rfl
theorem rxRead (i : Word32) : Statement (.rxRead i) := rfl
theorem rxConfirm : Statement (.rxConfirm) := rfl
theorem illegalOp00 : Statement (.illegalOp00) := rfl
theorem illegalOp06To07 (op : Byte) : Statement (.illegalOp06To07 op) := rfl
theorem illegalOp08To0F (op : Byte) : Statement (.illegalOp08To0F op) := rfl
theorem illegalOp12To13 (op : Byte) : Statement (.illegalOp12To13 op) := rfl
theorem illegalOp14To17 (op : Byte) : Statement (.illegalOp14To17 op) := rfl
theorem illegalOp18To1F (op : Byte) : Statement (.illegalOp18To1F op) := rfl
theorem illegalOp21 : Statement (.illegalOp21) := rfl
theorem illegalOp22To23 (op : Byte) : Statement (.illegalOp22To23 op) := rfl
theorem illegalOp24To27 (op : Byte) : Statement (.illegalOp24To27 op) := rfl
theorem illegalOp28To2F (op : Byte) : Statement (.illegalOp28To2F op) := rfl
theorem illegalOp33 : Statement (.illegalOp33) := rfl
theorem illegalOp34To37 (op : Byte) : Statement (.illegalOp34To37 op) := rfl
theorem illegalOp38To3F (op : Byte) : Statement (.illegalOp38To3F op) := rfl
theorem illegalOp40To7F (op : Byte) : Statement (.illegalOp40To7F op) := rfl
theorem illegalOp80ToFF (op : Byte) : Statement (.illegalOp80ToFF op) := rfl
theorem rxByte (b : Byte) : Statement (.rxByte b) := rfl
theorem rxEof : Statement (.rxEof) := rfl
theorem rxError (code : Word32) : Statement (.rxError code) := rfl
theorem tick : Statement (.tick) := rfl
theorem reset : Statement (.reset) := rfl
theorem cmdSetColor (data : List Byte) : Statement (.cmdSetColor data) := rfl
theorem cmdSetMode (data : List Byte) : Statement (.cmdSetMode data) := rfl
theorem cmdOta (data : List Byte) : Statement (.cmdOta data) := rfl
theorem cmdGetVersion (data : List Byte) : Statement (.cmdGetVersion data) := rfl
theorem cmdSetOutput (data : List Byte) : Statement (.cmdSetOutput data) := rfl
theorem cmdUnrecognized (code : Byte) (data : List Byte) : Statement (.cmdUnrecognized code data) := rfl
theorem cmdException (code : Byte) (data : List Byte) : Statement (.cmdException code data) := rfl

end Sys2Proof.Laws.Presented
end

