-- ==== Sys2Proof/Laws/Reception.lean ====
section
/-! SUPPORT. The receive buffer while it is filled from offset 0 on (spec/10_state.md R51), and what is read from it. -/

namespace Sys2Proof.Machine

/-- R51: a byte stored at the end of a filled buffer leaves it filled. -/
theorem filled_write (m : List Host.Cell) (n : Nat) (b : Byte) (h : m.map Prod.fst = List.range n) :
    (Memory.write m n b).map Prod.fst = List.range (n + 1) := by
  rw [write_next m n b h, List.range_succ]
  simp [h]

/-- R51: in a filled buffer exactly the offsets below the length hold a value. -/
theorem filled_isSome (m : List Host.Cell) (n : Nat) (h : m.map Prod.fst = List.range n) (a : Nat) :
    (Memory.read m a).isSome = true ↔ a < n := by
  have hl : (m.map Prod.snd).length = n := by have := congrArg List.length h; simpa using this
  rw [read_of_offsets m n h]
  simp [← hl]

/-- R199: the whole of a filled buffer. -/
theorem filled_readRange (m : List Host.Cell) (n : Nat) (h : m.map Prod.fst = List.range n) :
    Memory.readRange m 0 n = some (m.map Prod.snd) := by
  have hl : (m.map Prod.snd).length = n := by have := congrArg List.length h; simpa using this
  have := readRange_eq_some m 0 (m.map Prod.snd) (fun k _ => by rw [Nat.zero_add]; exact read_of_offsets m n h k)
  rwa [hl] at this

/-- R91: a filled buffer past the header has a data length. -/
theorem filled_dataLength (m : List Host.Cell) (n : Nat) (h : m.map Prod.fst = List.range n) (hn : 15 ≤ n) :
    ∃ k, dataLength m = some k := by
  obtain ⟨x, hx⟩ := Option.isSome_iff_exists.1 ((filled_isSome m n h 13).2 (by omega))
  obtain ⟨y, hy⟩ := Option.isSome_iff_exists.1 ((filled_isSome m n h 14).2 (by omega))
  exact ⟨_, (dataLength_some _ _).2 ⟨x, y, hx, hy, rfl⟩⟩

/-- R91: a byte past the header leaves the data length alone. -/
theorem dataLength_write (m : List Host.Cell) (a : Nat) (b : Byte) (h : 15 ≤ a) :
    dataLength (Memory.write m a b) = dataLength m := by
  unfold dataLength
  rw [read_write_other _ _ _ _ (by omega), read_write_other _ _ _ _ (by omega)]

/-- R108: the header read from the buffer. -/
theorem receivedHeader_some (s : State) (h : 15 ≤ s.rxLen.toNat) (f8 f9 f10 f11 f12 f13 f14 : Byte)
    (h8 : Memory.read s.rxBuf 8 = some f8) (h9 : Memory.read s.rxBuf 9 = some f9)
    (h10 : Memory.read s.rxBuf 10 = some f10) (h11 : Memory.read s.rxBuf 11 = some f11)
    (h12 : Memory.read s.rxBuf 12 = some f12) (h13 : Memory.read s.rxBuf 13 = some f13)
    (h14 : Memory.read s.rxBuf 14 = some f14) :
    receivedHeader s = some ⟨f8, f9, be16 f10 f11, f12, be16 f13 f14⟩ := by
  unfold receivedHeader
  rw [if_neg (by simp only [hdrLen]; omega)]
  simp [Memory.readRange, headerOf, h8, h9, h10, h11, h12, h13, h14]

/-- R237: the packed location. -/
theorem packLocation_eq (n : Word16) : packLocation dataOff n = BitVec.ofNat 64 (15 * 4294967296 + n.toNat) := by
  have := n.isLt
  apply BitVec.eq_of_toNat_eq
  simp only [packLocation, dataOff, BitVec.toNat_or, BitVec.toNat_shiftLeft, BitVec.toNat_ofNat, BitVec.toNat_setWidth,
    Nat.shiftLeft_eq]
  rw [Nat.mod_eq_of_lt (by omega : n.toNat < 2 ^ 64), show 15 % 2 ^ 64 * 2 ^ 32 % 2 ^ 64 = 15 <<< 32 by rfl,
    ← Nat.shiftLeft_add_eq_or_of_lt (by omega : n.toNat < 2 ^ 32), Nat.shiftLeft_eq]
  omega

end Sys2Proof.Machine
end

