-- ==== Sys2Proof/Tests/Slice0.lean ====
section
/-! SUPPORT. Tests. Expected values are those of spec/95_test_vectors.md (each test names its vector) under that file's
example instantiation, or a hand calculation from the rule named. After them, for every statement with hypotheses, a
theorem that shows concrete values meeting the hypotheses of each of its clauses. -/

namespace Sys2Proof.Tests

open Machine Statements

/-! ### Small states -/

/-- The example instantiation of spec/95_test_vectors.md section 0. -/
def params : Params where
  preamble := #v[0x55, 0x55, 0x55, 0x55, 0x55, 0x55, 0x55, 0x55]
  ownAddrReset := 0x00
  maxFrameLen := 64
  respToReset := ⟨0, 5⟩
  byteToReset := ⟨0, 2⟩

/-- Right after reset. -/
def start : State := State.resetOf params

/-- After `SET_SLAVE 0x01`. -/
def ready : State := { start with slave := 0x01, slaveValid := true }

/-- The preamble of the example instantiation. -/
def pre : List Byte := List.replicate 8 0x55

/-- The bytes are in the receive buffer from offset 0 on. -/
def holding (bytes : List Byte) : State :=
  { ready with rxBuf := bytes.mapIdx (fun k b => (k, b)), rxLen := BitVec.ofNat 32 bytes.length }

/-- In `HEADER` with the bytes received and `t` ticks left. -/
def inHeader (bytes : List Byte) (t : Word64) : State :=
  { holding bytes with rxState := .header, rxRemaining := BitVec.ofNat 32 (15 - bytes.length), timer := t }

/-- In `PAYLOAD` with the bytes received, `k` to come and two ticks left. -/
def inPayload (bytes : List Byte) (k : Word32) : State :=
  { holding bytes with rxState := .payload, rxRemaining := k, timer := 2 }

/-- In `DONE` with the frame received, and a request record. -/
def inDone (frame : List Byte) (seq : Word16) (cmd : Byte) : State :=
  { holding frame with
    rxState := .done, rxStatus := .ok, reqValid := true, reqDst := 0x01, reqSrc := 0x00, reqSeq := seq, reqCmd := cmd }

/-- The response header `H(N)` of spec/95_test_vectors.md section 2.4. -/
def h (nh nl : Byte) : List Byte := pre ++ [0x00, 0x01, 0x00, 0x00, 0x00, nh, nl]

/-- The state after an input. -/
def after (i : Instr) (s : State) : Option State :=
  match exec i s with
  | .next t => some t
  | .fault _ => none
  | .refused _ => none

/-- What an input returns. -/
def returns (i : Instr) (s : State) : Option (Status × Value) :=
  ((after i s).bind (·.result)).map fun r => (r.status, r.value)

/-- Where an input leaves the receive controller. -/
def reception (i : Instr) (s : State) : Option (RxState × Status × Nat × Nat × Nat) :=
  (after i s).map fun t => (t.rxState, t.rxStatus, t.rxLen.toNat, t.rxRemaining.toNat, t.timer.toNat)

/-! ### Ill-formed terms are refused (one for each check of WellFormed) -/

theorem test_wf_illegal06 : (Instr.illegalOp06To07 0x05).wellFormed = false := by decide
theorem test_wf_illegal08 : (Instr.illegalOp08To0F 0x10).wellFormed = false := by decide
theorem test_wf_illegal12 : (Instr.illegalOp12To13 0x11).wellFormed = false := by decide
theorem test_wf_illegal14 : (Instr.illegalOp14To17 0x13).wellFormed = false := by decide
theorem test_wf_illegal18 : (Instr.illegalOp18To1F 0x20).wellFormed = false := by decide
theorem test_wf_illegal22 : (Instr.illegalOp22To23 0x21).wellFormed = false := by decide
theorem test_wf_illegal24 : (Instr.illegalOp24To27 0x28).wellFormed = false := by decide
theorem test_wf_illegal28 : (Instr.illegalOp28To2F 0x30).wellFormed = false := by decide
theorem test_wf_illegal34 : (Instr.illegalOp34To37 0x33).wellFormed = false := by decide
theorem test_wf_illegal38 : (Instr.illegalOp38To3F 0x40).wellFormed = false := by decide
theorem test_wf_illegal40 : (Instr.illegalOp40To7F 0x80).wellFormed = false := by decide
theorem test_wf_illegal80 : (Instr.illegalOp80ToFF 0x7F).wellFormed = false := by decide
theorem test_wf_unrecognized_low : (Instr.cmdUnrecognized 0x04 []).wellFormed = false := by decide
theorem test_wf_unrecognized_high : (Instr.cmdUnrecognized 0x80 []).wellFormed = false := by decide
theorem test_wf_exception : (Instr.cmdException 0x7F []).wellFormed = false := by decide

/-- R104: no length field says 65536. -/
theorem test_wf_payload (cmd b : Byte) :
    (Instr.txBuild cmd (List.replicate 65536 b)).wellFormed = false
    ∧ (Instr.cmdSetColor (List.replicate 65536 b)).wellFormed = false
    ∧ (Instr.cmdSetMode (List.replicate 65536 b)).wellFormed = false
    ∧ (Instr.cmdOta (List.replicate 65536 b)).wellFormed = false
    ∧ (Instr.cmdGetVersion (List.replicate 65536 b)).wellFormed = false
    ∧ (Instr.cmdSetOutput (List.replicate 65536 b)).wellFormed = false
    ∧ (Instr.cmdUnrecognized cmd (List.replicate 65536 b)).wellFormed = false
    ∧ (Instr.cmdException cmd (List.replicate 65536 b)).wellFormed = false := by
  simp only [Instr.wellFormed, payloadFits, List.length_replicate]
  simp

/-! ### Decoding: every constructor from bytes written out from R104 to R106; a command code's name has `TX_BUILD`'s -/

theorem test_decode_setSlave : decode .host [0x01, 0x01] = .ok (.setSlave 0x01, []) := by decide
theorem test_decode_setOwnAddr : decode .host [0x02, 0x7F] = .ok (.setOwnAddr 0x7F, []) := by decide
theorem test_decode_setRespTimeout :
    decode .host [0x03, 0x00, 0x00, 0x00, 0x00, 0x00, 0x0F, 0x42, 0x3F] = .ok (.setRespTimeout 0 999999, []) := by
  decide
theorem test_decode_setByteTimeout :
    decode .host [0x04, 0x00, 0x00, 0x00, 0x07, 0x00, 0x00, 0x00, 0x00] = .ok (.setByteTimeout 7 0, []) := by
  decide
theorem test_decode_readReg : decode .host [0x05, 0x12] = .ok (.readReg 0x12, []) := by decide
theorem test_decode_crcInit : decode .host [0x10, 0x11] = .ok (.crcInit, [0x11]) := by decide
theorem test_decode_crcUpdate : decode .host [0x11, 0x31] = .ok (.crcUpdate 0x31, []) := by decide
/-- TX-17. -/
theorem test_decode_txBuild :
    decode .host [0x20, 0x00, 0x00, 0x03, 0xFF, 0x00, 0x00] = .ok (.txBuild 0x00 [0xFF, 0x00, 0x00], []) := by
  decide
theorem test_decode_rxStart : decode .host [0x30] = .ok (.rxStart, []) := by decide
theorem test_decode_rxRead : decode .host [0x31, 0x01, 0x02, 0x03, 0x04] = .ok (.rxRead 0x01020304, []) := by
  decide
theorem test_decode_rxConfirm : decode .host [0x32] = .ok (.rxConfirm, []) := by decide
/-- R136: the bytes after an illegal opcode are dropped. -/
theorem test_decode_illegalOp00 : decode .host [0x00, 0x01, 0x02] = .ok (.illegalOp00, []) := by decide
theorem test_decode_illegalOp06To07 : decode .host [0x06] = .ok (.illegalOp06To07 0x06, []) := by decide
theorem test_decode_illegalOp08To0F : decode .host [0x0F] = .ok (.illegalOp08To0F 0x0F, []) := by decide
theorem test_decode_illegalOp12To13 : decode .host [0x12] = .ok (.illegalOp12To13 0x12, []) := by decide
theorem test_decode_illegalOp14To17 : decode .host [0x17] = .ok (.illegalOp14To17 0x17, []) := by decide
theorem test_decode_illegalOp18To1F : decode .host [0x18] = .ok (.illegalOp18To1F 0x18, []) := by decide
theorem test_decode_illegalOp21 : decode .host [0x21] = .ok (.illegalOp21, []) := by decide
theorem test_decode_illegalOp22To23 : decode .host [0x23] = .ok (.illegalOp22To23 0x23, []) := by decide
theorem test_decode_illegalOp24To27 : decode .host [0x24] = .ok (.illegalOp24To27 0x24, []) := by decide
theorem test_decode_illegalOp28To2F : decode .host [0x2F] = .ok (.illegalOp28To2F 0x2F, []) := by decide
theorem test_decode_illegalOp33 : decode .host [0x33] = .ok (.illegalOp33, []) := by decide
theorem test_decode_illegalOp34To37 : decode .host [0x37] = .ok (.illegalOp34To37 0x37, []) := by decide
theorem test_decode_illegalOp38To3F : decode .host [0x38] = .ok (.illegalOp38To3F 0x38, []) := by decide
theorem test_decode_illegalOp40To7F : decode .host [0x7F] = .ok (.illegalOp40To7F 0x7F, []) := by decide
theorem test_decode_illegalOp80ToFF : decode .host [0xFE] = .ok (.illegalOp80ToFF 0xFE, []) := by decide
theorem test_decode_rxByte : decode .event [0x80, 0x84, 0x80] = .ok (.rxByte 0x84, [0x80]) := by decide
theorem test_decode_rxEof : decode .event [0x81] = .ok (.rxEof, []) := by decide
theorem test_decode_rxError : decode .event [0x82, 0x00, 0x00, 0x00, 0x68] = .ok (.rxError 104, []) := by decide
theorem test_decode_tick : decode .event [0x83] = .ok (.tick, []) := by decide
theorem test_decode_reset : decode .event [0xFF] = .ok (.reset, []) := by decide
/-- R104, R105: the bytes of a command code's name are `TX_BUILD`'s, and the decoder reads `TX_BUILD` from them. -/
theorem test_decode_cmdSetColor :
    encode (.cmdSetColor [1, 2, 3]) = [0x20, 0x00, 0x00, 0x03, 1, 2, 3]
    ∧ decode .host [0x20, 0x00, 0x00, 0x03, 1, 2, 3] = .ok (.txBuild 0x00 [1, 2, 3], []) := by decide
theorem test_decode_cmdSetMode :
    encode (.cmdSetMode [2]) = [0x20, 0x01, 0x00, 0x01, 2]
    ∧ decode .host [0x20, 0x01, 0x00, 0x01, 2] = .ok (.txBuild 0x01 [2], []) := by decide
theorem test_decode_cmdOta :
    encode (.cmdOta [0xDE, 0xAD]) = [0x20, 0x02, 0x00, 0x02, 0xDE, 0xAD]
    ∧ decode .host [0x20, 0x02, 0x00, 0x02, 0xDE, 0xAD] = .ok (.txBuild 0x02 [0xDE, 0xAD], []) := by decide
theorem test_decode_cmdGetVersion :
    encode (.cmdGetVersion []) = [0x20, 0x03, 0x00, 0x00]
    ∧ decode .host [0x20, 0x03, 0x00, 0x00] = .ok (.txBuild 0x03 [], []) := by decide
theorem test_decode_cmdSetOutput :
    encode (.cmdSetOutput [1, 0]) = [0x20, 0x04, 0x00, 0x02, 1, 0]
    ∧ decode .host [0x20, 0x04, 0x00, 0x02, 1, 0] = .ok (.txBuild 0x04 [1, 0], []) := by decide
theorem test_decode_cmdUnrecognized :
    encode (.cmdUnrecognized 0x7F []) = [0x20, 0x7F, 0x00, 0x00]
    ∧ decode .host [0x20, 0x7F, 0x00, 0x00] = .ok (.txBuild 0x7F [], []) := by decide
theorem test_decode_cmdException :
    encode (.cmdException 0x80 []) = [0x20, 0x80, 0x00, 0x00]
    ∧ decode .host [0x20, 0x80, 0x00, 0x00] = .ok (.txBuild 0x80 [], []) := by decide

/-- R106: a code of no event. -/
theorem test_decode_notAnEvent : decode .event [0x84] = .error (.notAnEvent 0x84) := by decide

/-- R104: "the data bytes are exactly the n bytes after nl": with fewer there is no operation. -/
theorem test_decode_truncated : decode .host [0x20, 0x00, 0x00, 0x03, 0xFF] = .error .truncated := by decide

/-- The same words numbered as spec/opcode_table.json numbers bits: byte 1 in bits 15..8. -/
theorem test_tableWord_setSlave : decodeTableWord 16 0x7F01 = some (.setSlave 0x7F) := by decide

/-- A row with fewer bits than its operands: the missing ones are 0. -/
theorem test_tableWord_setRespTimeout : decodeTableWord 8 0x03 = some (.setRespTimeout 0 0) := by decide

/-! ### One step of each instruction -/

/-- CFG-2. -/
theorem test_setSlave : (after (.setSlave 0x01) start).map (fun t => (t.slaveValid, t.slave)) = some (true, 0x01) := by
  decide
/-- CFG-5. -/
theorem test_setOwnAddr : (after (.setOwnAddr 0x7F) start).map (·.ownAddr) = some 0x7F := by decide
/-- CFG-10: neither half is written. -/
theorem test_setRespTimeout_usec :
    (after (.setRespTimeout 3 1000000) start).map (fun t => (t.respToSec, t.respToUsec)) = some (0, 5) := by
  decide
/-- CFG-8. -/
theorem test_setRespTimeout :
    (after (.setRespTimeout 0 999999) start).map (fun t => (t.respToSec, t.respToUsec)) = some (0, 999999) := by
  decide
/-- CFG-14. -/
theorem test_setByteTimeout_usec : returns (.setByteTimeout 0 1000000) start = some (.invalidArg, .none) := by
  decide
/-- CFG-13. -/
theorem test_setByteTimeout :
    (after (.setByteTimeout 0 0) start).map (fun t => (t.byteToSec, t.byteToUsec)) = some (0, 0) := by decide
/-- CFG-2. -/
theorem test_readReg_slave : returns (.readReg 0x00) ready = some (.ok, .word 0x101) := by decide
/-- CFG-17. -/
theorem test_readReg_unassigned : returns (.readReg 0x13) ready = some (.invalidArg, .none) := by decide
/-- P7, step 5. -/
theorem test_crcInit : (after .crcInit { start with crc := 0x4B37 }).map (·.crc) = some 0xFFFF := by decide
/-- CRC-14. -/
theorem test_crcUpdate : (after (.crcUpdate 0x01) start).map (·.crc) = some 0x807E := by decide
/-- CRC-12. -/
theorem test_crc16 : crc16 (pre ++ [0x01, 0, 0, 0, 0, 0, 0]) = 0x4095 := by decide +kernel
/-- TX-6. -/
theorem test_txBuild : returns (.txBuild 0x04 [0x01, 0x00]) { ready with seq := 0x1234 }
    = some (.ok, .frame (pre ++ [0x01, 0x00, 0x12, 0x34, 0x04, 0x00, 0x02, 0x01, 0x00, 0x09, 0x45])) := by decide +kernel
/-- TX-13: the size check comes before the address check. -/
theorem test_txBuild_tooMuch : returns (.txBuild 0x00 (List.replicate 48 0)) start = some (.tooMuchData, .none) := by
  decide
/-- RX-11. -/
theorem test_rxStart : reception .rxStart ready = some (.header, .none, 0, 15, 5) := by decide
/-- RX-13, the last step. -/
theorem test_rxStart_discards : (after .rxStart (inDone (h 0 0 ++ [0x84, 0x51]) 0 0)).map (·.rxBuf) = some [] := by
  decide
/-- RX-17. -/
theorem test_rxRead : returns (.rxRead 16) (inDone (h 0 0 ++ [0x84, 0x51]) 0 0) = some (.ok, .byte 0x51) := by
  decide
/-- RX-17. -/
theorem test_rxRead_past : returns (.rxRead 17) (inDone (h 0 0 ++ [0x84, 0x51]) 0 0) = some (.invalidArg, .none) := by
  decide
/-- CF-14. -/
theorem test_rxConfirm :
    returns .rxConfirm (inDone (pre ++ [0x00, 0x01, 0x00, 0x02, 0x03, 0x00, 0x03, 0x31, 0x2E, 0x32, 0x93, 0xB4]) 2 0x03)
      = some (.ok, .word 0xF00000003) := by decide
/-- CF-13: length first. -/
theorem test_rxConfirm_length :
    returns .rxConfirm (inDone (pre ++ [0x00, 0x01, 0x00, 0x09, 0x00, 0x00, 0x01, 0x00, 0x8C, 0xF2]) 1 0x01)
      = some (.badData, .none) := by decide
/-- CFG-20. -/
theorem test_illegalOp : returns .illegalOp21 start = some (.illegalOp, .none) := by decide
/-- RX-1: the fifteenth byte of `H(47)`. -/
theorem test_rxByte_fits : reception (.rxByte 0x2F) (inHeader (pre ++ [0, 1, 0, 0, 0, 0]) 5)
    = some (.payload, .none, 15, 49, 2) := by decide
/-- RX-2: the fifteenth byte of `H(48)`. -/
theorem test_rxByte_overflows : reception (.rxByte 0x30) (inHeader (pre ++ [0, 1, 0, 0, 0, 0]) 5)
    = some (.error, .badData, 15, 0, 5) := by decide
/-- RX-4. -/
theorem test_rxEof : reception .rxEof (inHeader [0x55, 0x55, 0x55] 5) = some (.error, .connReset, 3, 12, 5) := by
  decide
/-- RX-5. -/
theorem test_rxError : reception (.rxError 104) (inPayload (h 0 3) 5) = some (.error, .transportError, 15, 5, 2) := by
  decide
/-- RX-8, step 3. -/
theorem test_tick : reception .tick (inPayload (h 0 0) 2) = some (.payload, .none, 15, 2, 1) := by decide
/-- RX-12. -/
theorem test_reset : reception .reset (inPayload (h 0 3) 5) = some (.idle, .none, 0, 0, 0) := by decide
/-- TX-1, by its command code's name. -/
theorem test_cmdSetColor : returns (.cmdSetColor [0xFF, 0x00, 0x00]) ready
    = some (.ok, .frame (pre ++ [0x01, 0, 0, 0, 0x00, 0, 3, 0xFF, 0x00, 0x00, 0x11, 0x98])) := by decide +kernel
/-- TX-3. -/
theorem test_cmdSetMode : returns (.cmdSetMode [0x02]) { ready with seq := 1 }
    = some (.ok, .frame (pre ++ [0x01, 0, 0, 1, 0x01, 0, 1, 0x02, 0x3C, 0x02])) := by decide +kernel
/-- TX-5. -/
theorem test_cmdOta : returns (.cmdOta [0xDE, 0xAD]) { ready with seq := 3 }
    = some (.ok, .frame (pre ++ [0x01, 0, 0, 3, 0x02, 0, 2, 0xDE, 0xAD, 0x2E, 0x8E])) := by decide +kernel
/-- TX-2. -/
theorem test_cmdGetVersion : returns (.cmdGetVersion []) ready
    = some (.ok, .frame (pre ++ [0x01, 0, 0, 0, 0x03, 0, 0, 0x65, 0x40])) := by decide +kernel
/-- TX-6. -/
theorem test_cmdSetOutput : returns (.cmdSetOutput [0x01, 0x00]) { ready with seq := 0x1234 }
    = some (.ok, .frame (pre ++ [0x01, 0, 0x12, 0x34, 0x04, 0, 2, 0x01, 0x00, 0x09, 0x45])) := by decide +kernel
/-- TX-8. -/
theorem test_cmdUnrecognized : returns (.cmdUnrecognized 0x05 []) { ready with seq := 4 }
    = some (.ok, .frame (pre ++ [0x01, 0, 0, 4, 0x05, 0, 0, 0x84, 0x71])) := by decide +kernel
/-- TX-9. -/
theorem test_cmdException : returns (.cmdException 0x80 []) { ready with slave := 0xFF, ownAddr := 0x7F }
    = some (.ok, .frame (pre ++ [0xFF, 0x7F, 0, 0, 0x80, 0, 0, 0x80, 0xA8])) := by decide +kernel

/-! ### The step -/

/-- R10: a step takes one input and leaves the bytes after it. -/
theorem test_step_leaves_the_rest :
    (match step { start with inputs := [⟨.host, [0x01, 0x05, 0x10]⟩] } with
     | .next t => some (t.slave, t.inputs)
     | .fault _ => none
     | .refused _ => none) = some (0x05, [⟨.host, [0x10]⟩]) := by decide

/-- RX-10: in `IDLE` a byte takes no step and stays presented, and the tick behind it is taken. -/
theorem test_step_unaccepted :
    (match step { start with inputs := [⟨.event, [0x80, 0x55]⟩, ⟨.event, [0x83]⟩] } with
     | .next t => some t.inputs
     | .fault _ => none
     | .refused _ => none) = some [⟨.event, [0x80, 0x55]⟩] := by decide

/-! ### Witnesses: concrete values meeting the hypotheses of each clause of a statement, at the bounds of its ranges -/

/-- The 17-byte response to the request with sequence number 1 and command 0x01 (CF-1), all but its last byte. -/
def almost : List Byte := pre ++ [0x00, 0x01, 0x00, 0x01, 0x01, 0x00, 0x00, 0xD4]

theorem witness_SetSlaveStoresTheAddress : ready.busy = false ∧ (inHeader [] 5).busy = true := by decide

theorem witness_SetOwnAddrStoresTheAddress : ready.busy = false ∧ (inPayload (h 0 0) 2).busy = true := by decide

theorem witness_SetRespTimeoutChecksAndStores :
    (inHeader [] 5).busy = true
    ∧ (ready.busy = false ∧ 1000000 ≤ (1000000 : Word32).toNat)
    ∧ (ready.busy = false ∧ (0 : Word32) = 0)
    ∧ (ready.busy = false ∧ (999999 : Word32).toNat < 1000000 ∧ ¬ ((0 : Word32) = 0 ∧ (999999 : Word32) = 0))
    ∧ (ready.busy = false ∧ (1 : Word32).toNat < 1000000 ∧ ¬ ((0 : Word32) = 0 ∧ (1 : Word32) = 0)) := by decide

theorem witness_SetByteTimeoutChecksAndStores :
    (inHeader [] 5).busy = true
    ∧ (ready.busy = false ∧ 1000000 ≤ (1000000 : Word32).toNat)
    ∧ (ready.busy = false ∧ (999999 : Word32).toNat < 1000000)
    ∧ (ready.busy = false ∧ (0 : Word32).toNat < 1000000) := by decide

theorem witness_ReadRegReturnsTheMappedRegister :
    0x12 < (0x13 : Byte).toNat ∧ 0x12 < (0xFF : Byte).toNat ∧ ¬ 0x12 < (0x12 : Byte).toNat := by decide

/-- TX-10 and TX-11: 47 bytes fit, 48 do not. -/
theorem witness_TxBuildReturnsTheRequestFrame :
    (inHeader [] 5).busy = true
    ∧ (ready.busy = false ∧ ready.params.maxFrameLen - 17 < (List.replicate 48 (0 : Byte)).length)
    ∧ (start.busy = false ∧ (List.replicate 47 (0 : Byte)).length ≤ start.params.maxFrameLen - 17
        ∧ start.slaveValid = false)
    ∧ mayBuild (List.replicate 47 0) ready ∧ mayBuild [] ready
    ∧ (List.replicate 65535 (0 : Byte)).length ≤ 65535 := by
  refine ⟨by decide, by decide, by decide, ⟨by decide, by decide, by decide⟩, ⟨by decide, by decide, by decide⟩, ?_⟩
  rw [List.length_replicate]

/-- In each of R173's four cases: busy, 48 bytes, no slave address with 47 bytes, and a build. -/
theorem witness_CommandCodesBuildTheirRequest :
    (inPayload (h 0 0) 2).busy = true
    ∧ (ready.busy = false ∧ ready.params.maxFrameLen - 17 < (List.replicate 48 (0 : Byte)).length)
    ∧ (start.busy = false ∧ (List.replicate 47 (0 : Byte)).length ≤ start.params.maxFrameLen - 17
        ∧ start.slaveValid = false)
    ∧ mayBuild [0xFF, 0x00, 0x00] ready ∧ mayBuild (List.replicate 47 0) ready := by
  refine ⟨by decide, by decide, by decide, ⟨by decide, by decide, by decide⟩, by decide, by decide, by decide⟩

theorem witness_RxStartArmsTheHeaderPhase : (inPayload (h 0 0) 2).busy = true ∧ ready.busy = false := by decide

/-- The first and the last offset that hold a byte, and the first that does not. -/
theorem witness_RxReadReturnsAReceivedByte :
    ((0 : Word32).toNat < (inPayload (h 0 0) 2).rxLen.toNat
      ∧ Memory.read (inPayload (h 0 0) 2).rxBuf (0 : Word32).toNat = some 0x55)
    ∧ ((inPayload (h 0 7) 2).bufferFilled ∧ (14 : Word32).toNat < (inPayload (h 0 7) 2).rxLen.toNat
      ∧ Memory.read (inPayload (h 0 7) 2).rxBuf (14 : Word32).toNat = some 0x07)
    ∧ (inPayload (h 0 0) 2).rxLen.toNat ≤ (15 : Word32).toNat := by
  refine ⟨by decide, ⟨⟨by decide, by decide⟩, by decide, by decide⟩, by decide⟩

theorem witness_RxConfirmClassifiesTheFrame :
    let s := inDone (almost ++ [0x6D]) 1 0x01
    (inPayload (h 0 0) 2).rxState ≠ .done
    ∧ ready.reqValid = false
    ∧ s.rxState = .done ∧ s.reqValid = true ∧ 15 ≤ s.rxLen.toNat
    ∧ Memory.read s.rxBuf 8 = some 0x00 ∧ Memory.read s.rxBuf 9 = some 0x01 ∧ Memory.read s.rxBuf 10 = some 0x00
    ∧ Memory.read s.rxBuf 11 = some 0x01 ∧ Memory.read s.rxBuf 12 = some 0x01 ∧ Memory.read s.rxBuf 13 = some 0x00
    ∧ Memory.read s.rxBuf 14 = some 0x00 := by decide

/-- RX-1 and RX-2: with the fifteenth byte, 47 payload bytes fit and 48 do not. -/
theorem witness_HeaderByteIsStored :
    let a := inHeader (pre ++ [0, 1, 0, 0, 0]) 5
    let z := inHeader (pre ++ [0, 1, 0, 0, 0, 0]) 5
    (a.rxState = .header ∧ a.rxLen.toNat < a.params.maxFrameLen ∧ 1 < a.rxRemaining.toNat)
    ∧ (z.rxState = .header ∧ z.rxLen.toNat < z.params.maxFrameLen ∧ z.rxRemaining.toNat = 1)
    ∧ (Memory.read (Memory.write z.rxBuf z.rxLen.toNat 0x2F) 13 = some 0x00
      ∧ Memory.read (Memory.write z.rxBuf z.rxLen.toNat 0x2F) 14 = some 0x2F
      ∧ 17 + ((0x00 : Byte).toNat * 256 + (0x2F : Byte).toNat) ≤ z.params.maxFrameLen)
    ∧ (Memory.read (Memory.write z.rxBuf z.rxLen.toNat 0x30) 13 = some 0x00
      ∧ Memory.read (Memory.write z.rxBuf z.rxLen.toNat 0x30) 14 = some 0x30
      ∧ z.params.maxFrameLen < 17 + ((0x00 : Byte).toNat * 256 + (0x30 : Byte).toNat)) := by decide

/-- The last byte of CF-1's response, right and wrong, and the byte before it. -/
theorem witness_PayloadByteIsStored :
    let body := pre ++ [0x00, 0x01, 0x00, 0x01, 0x01, 0x00, 0x00]
    let a := inPayload body 2
    let z := inPayload almost 1
    (a.rxState = .payload ∧ a.rxLen.toNat < a.params.maxFrameLen ∧ 1 < a.rxRemaining.toNat)
    ∧ (z.rxState = .payload ∧ z.rxLen.toNat < z.params.maxFrameLen ∧ z.rxRemaining.toNat = 1)
    ∧ (Memory.readRange (Memory.write z.rxBuf z.rxLen.toNat 0x6D) 0 (z.rxLen + 1).toNat = some (body ++ [0xD4, 0x6D])
      ∧ 0xD4 = lo8 (crc16 body) ∧ 0x6D = hi8 (crc16 body))
    ∧ (Memory.readRange (Memory.write z.rxBuf z.rxLen.toNat 0x6E) 0 (z.rxLen + 1).toNat = some (body ++ [0xD4, 0x6E])
      ∧ ¬ (0xD4 = lo8 (crc16 body) ∧ 0x6E = hi8 (crc16 body))) := by decide +kernel

theorem witness_TickCountsTheWaitDown :
    ((inPayload (h 0 0) 2).busy = true ∧ 1 < (inPayload (h 0 0) 2).timer.toNat)
    ∧ ((inHeader [] 1).busy = true ∧ (inHeader [] 1).timer.toNat = 1)
    ∧ ready.busy = false := by decide

theorem witness_EndOfStreamEndsTheReception : (inHeader [] 5).busy = true ∧ ready.busy = false := by decide

theorem witness_TransportErrorIsKept : (inPayload (h 0 3) 5).busy = true ∧ ready.busy = false := by decide

theorem witness_UnacceptedEventsTakeNoStep :
    ready.rxState = .idle ∧ (inDone (almost ++ [0x6D]) 1 0x01).rxState = .done
    ∧ ({ ready with rxState := .error } : State).rxState = .error
    ∧ (inHeader [] 5).rxState = .header ∧ (inPayload (h 0 0) 2).rxState = .payload := by decide

/-- An event that is accepted and one that is not, beside a result that still shows. -/
theorem witness_EventsReturnNothing :
    let s := refusedWith .busy ready
    (portOf .tick = .event ∧ exec .tick s = .next (silent s))
    ∧ (portOf .rxEof = .event ∧ exec .rxEof s = .next s ∧ s.busy = false) :=
  ⟨⟨rfl, rfl⟩, rfl, rfl, rfl⟩

theorem witness_ResponseLengthByCommand : (0x02 : Byte) ≠ 0x03 ∧ (0x83 : Byte) ≠ 0x03 := by decide

theorem witness_FrameFieldsStandAtTheirOffsets : 0 < 8 ∧ 7 < 8 ∧ 0 < ([0x02] : List Byte).length := by decide

theorem witness_ChecksumCatchesAnyChangedByte :
    ((finalize [0x01])[0]? = some 0x01 ∧ (0x03 : Byte) ≠ 0x01)
    ∧ ((finalize [0x01])[2]? = some 0x80 ∧ (0x7E : Byte) ≠ 0x80) := by decide +kernel

theorem witness_DecodeReadsBackEveryEncoding :
    (Instr.txBuild 0x20 [0x20]).wellFormed = true ∧ (Instr.illegalOp40To7F 0x7F).wellFormed = true
    ∧ (Instr.cmdUnrecognized 0x05 []).wellFormed = true := by decide

theorem witness_DecodeReadsOnlyEncodings :
    decode .event [0x82, 0x00, 0x00, 0x00, 0x68, 0x83] = .ok (.rxError 104, [0x83])
    ∧ (Instr.rxError 104).illegal = false := by decide

theorem witness_OpcodesOutsideTheTableAreIllegal :
    (0x33 : Byte) ∉ ([0x01, 0x02, 0x03, 0x04, 0x05, 0x10, 0x11, 0x20, 0x30, 0x31, 0x32] : List Byte)
    ∧ (0x32 : Byte) ∈ ([0x01, 0x02, 0x03, 0x04, 0x05, 0x10, 0x11, 0x20, 0x30, 0x31, 0x32] : List Byte)
    ∧ decode .host [0x32] = .ok (.rxConfirm, []) := by decide

theorem witness_CodesOfNoEventAreRefused :
    (0x84 : Byte) ∉ ([0x80, 0x81, 0x82, 0x83, 0xFF] : List Byte)
    ∧ (0xFE : Byte) ∉ ([0x80, 0x81, 0x82, 0x83, 0xFF] : List Byte) := by decide

theorem witness_StepRunsTheDecodedInput :
    takeInput (inHeader [] 5).rxAccept [⟨.event, [0x80, 0x55, 0x80, 0x56]⟩]
      = some ⟨[], ⟨.event, [0x80, 0x55, 0x80, 0x56]⟩, []⟩
    ∧ decode .event [0x80, 0x55, 0x80, 0x56] = .ok (.rxByte 0x55, [0x80, 0x56]) := by decide

theorem witness_StepWithoutInputDoesNothing : start.inputs = [] := rfl

theorem witness_UnacceptedInputStaysPresented :
    takes start.rxAccept ⟨.event, [0x80, 0x55]⟩ = false
    ∧ step { start with inputs := [⟨.event, [0x83]⟩] } = .next (silent start) := ⟨rfl, rfl⟩

theorem witness_OnlyReceptionTouchesTheBuffer : ∃ t, exec (.rxByte 0x55) (inHeader [0x55] 5) = .next t := ⟨_, rfl⟩

theorem witness_ConfigurationChangesOnlyBySetters :
    exec (.setSlave 0x02) ready = .next (answer { ready with slave := 0x02 })
    ∧ ∀ a, Instr.setSlave 0x02 ≠ .setOwnAddr a := ⟨rfl, by simp⟩

theorem witness_RequestRecordChangesOnlyByABuild :
    (∃ t, exec (.txBuild 0x03 []) ready = .next t) ∧ Instr.txBuild 0x03 [] ≠ .reset := ⟨⟨_, rfl⟩, by simp⟩

/-- A build and a reset whose bytes stand behind a byte the block does not accept. -/
theorem witness_OnlyTxBuildAndResetWriteTheSequence :
    (∃ t, step { ready with inputs := [⟨.event, [0x80, 0x55]⟩, ⟨.host, [0x20, 0x03, 0x00, 0x00]⟩] } = .next t
      ∧ t.seq ≠ ready.seq)
    ∧ ∃ t, step { ready with seq := 7, inputs := [⟨.event, [0xFF]⟩] } = .next t ∧ t.seq ≠ 7 := by
  refine ⟨⟨_, rfl, by decide⟩, ⟨_, rfl, by decide⟩⟩

theorem witness_CrcRegisterIsIndependent :
    (exec .rxStart ready = .next (answer (startReception ready)) ∧ Instr.rxStart ≠ .crcInit
      ∧ (∀ b, Instr.rxStart ≠ .crcUpdate b) ∧ (∀ r, Instr.rxStart ≠ .readReg r) ∧ Instr.rxStart ≠ .reset)
    ∧ ∃ b, Instr.crcUpdate 0x31 = .crcUpdate b := ⟨⟨rfl, by simp, by simp, by simp, by simp⟩, _, rfl⟩

theorem witness_ReceptionIgnoresThePreamble :
    (byteOrTick (.rxByte 0x55) = true ∧ ∃ t, exec (.rxByte 0x55) (inHeader [0x55] 5) = .next t)
    ∧ ∃ t, exec .rxConfirm ready = .next t := ⟨⟨rfl, _, rfl⟩, _, rfl⟩

theorem witness_HostOperationsLeaveReceptionAlone :
    portOf .crcInit ≠ .event ∧ ∃ t, exec .crcInit (inHeader [0x55] 5) = .next t := ⟨by decide, _, rfl⟩

theorem witness_EndedReceptionIsFrozen :
    (inDone (almost ++ [0x6D]) 1 0x01).busy = false
    ∧ ∃ t, exec (.rxByte 0x55) (inDone (almost ++ [0x6D]) 1 0x01) = .next t := ⟨by decide, _, rfl⟩

theorem witness_ReceptionEndsOnlyByItsEvents :
    (inHeader [0x55] 5).busy = true
    ∧ exec .rxEof (inHeader [0x55] 5) = .next (silent (finish .connReset (inHeader [0x55] 5)))
    ∧ (silent (finish .connReset (inHeader [0x55] 5))).busy = false := ⟨by decide, rfl, rfl⟩

theorem witness_BusyRefusesExactlyTheListedOperations :
    (inPayload (h 0 0) 2).busy = true
    ∧ exec (.readReg 0x08) (inPayload (h 0 0) 2) = .next (answerWith (.word 2) (inPayload (h 0 0) 2)) :=
  ⟨by decide, rfl⟩

theorem witness_RefusedOperationsChangeNothing :
    portOf (.readReg 0x13) ≠ .event ∧ exec (.readReg 0x13) start = .next (refusedWith .invalidArg start) :=
  ⟨by decide, rfl⟩

theorem witness_ReadsHaveNoSideEffects :
    (∃ t, exec (.readReg 0x0D) ready = .next t) ∧ (∃ t, exec (.rxRead 0) ready = .next t)
    ∧ ∃ t, exec .rxConfirm ready = .next t := ⟨⟨_, rfl⟩, ⟨_, rfl⟩, ⟨_, rfl⟩⟩

/-- TX-7: the number wraps. -/
theorem witness_SequenceNumbersCountBuilds :
    ∀ r ∈ ([(0x00, []), (0x03, [0x01])] : List (Byte × List Byte)), mayBuild r.2 { ready with seq := 0xFFFF } := by
  intro r hr
  simp only [List.mem_cons, List.not_mem_nil, or_false] at hr
  rcases hr with rfl | rfl <;> exact ⟨by decide, by decide, by decide⟩

theorem witness_WaitTimesOutOnItsLastTick :
    ((inHeader [] 5).busy = true ∧ (inHeader [] 5).timer.toNat = 4 + 1)
    ∧ ((inPayload (h 0 0) 2).busy = true ∧ (inHeader [] 1).timer.toNat = 0 + 1) := by decide

/-- In the header phase with the byte timeout on, and in the payload phase with it off. -/
theorem witness_OneDeadlineWithoutRearming :
    let off : State := { inPayload (h 0 0) 2 with byteToUsec := 0 }
    ((inHeader [] 5).busy = true ∧ (∀ i ∈ [Instr.tick, .rxByte 0x55, .tick], byteOrTick i = true)
      ∧ (run [.tick, .rxByte 0x55, .tick] (inHeader [] 5)).map (·.rxState) = some .header)
    ∧ (off.busy = true ∧ off.byteToSec = 0 ∧ off.byteToUsec = 0
      ∧ (run [.rxByte 0x84, .tick] off).map (·.busy) = some true) := by decide

/-- RX-13's frame, whole and short of its last byte. -/
theorem witness_ReceptionTakesTheDeclaredLength :
    let f := h 0 0 ++ [0x84, 0x51]
    let is := Instr.tick :: f.map Instr.rxByte
    ready.busy = false
    ∧ exec .rxStart ready = .next (answer (startReception ready))
    ∧ f[13]? = some 0x00 ∧ f[14]? = some 0x00 ∧ f.length = 17 + ((0x00 : Byte).toNat * 256 + (0x00 : Byte).toNat)
    ∧ f.length ≤ ready.params.maxFrameLen
    ∧ (∀ i ∈ is, byteOrTick i = true)
    ∧ ((run is (answer (startReception ready))).map (·.rxStatus) = some .ok ∧ receivedBytes is = f)
    ∧ ((run is.dropLast (answer (startReception ready))).map (·.rxStatus) = some .none
      ∧ receivedBytes is.dropLast = h 0 0 ++ [0x84] ∧ h 0 0 ++ [0x84] <+: f ∧ h 0 0 ++ [0x84] ≠ f) := by
  refine ⟨rfl, rfl, by decide +kernel⟩

/-- A get-version request answered by the longest payload, and a request with command 0x7F answered by none. -/
theorem witness_MatchingResponseIsConfirmed :
    ready.params.legal = true ∧ mayBuild [] ready ∧ (0x03 : Byte).toNat < 0x80
    ∧ (List.replicate 47 (0 : Byte)).length ≤ ready.params.maxFrameLen - 17
    ∧ (0x7F : Byte).toNat < 0x80 ∧ ([] : List Byte).length ≤ ready.params.maxFrameLen - 17 :=
  ⟨by decide, ⟨by decide, by decide, by decide⟩, by decide, by decide, by decide, by decide⟩

theorem witness_ExceptionResponseIsANack : ready.params.legal = true ∧ mayBuild [0x02] ready :=
  ⟨by decide, ⟨by decide, by decide, by decide⟩⟩

/-- A state in the middle of a reception meets the invariant. -/
theorem inPayload_inv : (inPayload (h 0 3 ++ [0x31]) 4).Inv := by
  refine ⟨⟨by decide, by decide, by decide⟩, ⟨by decide, by decide⟩, ⟨by decide, by decide⟩, ?_, ?_⟩
  · exact ⟨⟨by decide, by decide⟩, by decide, by decide, by decide⟩
  · exact ⟨by decide, by decide, by decide, by decide⟩

/-- A state after a reception meets it too. -/
theorem inDone_inv : (inDone (almost ++ [0x6D]) 1 0x01).Inv := by
  refine ⟨⟨by decide, by decide, by decide⟩, ⟨by decide, by decide⟩, ⟨by decide, by decide⟩, ?_, ?_⟩
  · have bytes : Memory.readRange (inDone (almost ++ [0x6D]) 1 0x01).rxBuf 0 17 = some (almost ++ [0x6D]) := by decide
    have intact : integrityOk (almost ++ [0x6D]) = true := by decide +kernel
    refine ⟨by decide, rfl, by decide, ?_⟩
    show frameIntact (Memory.readRange (inDone (almost ++ [0x6D]) 1 0x01).rxBuf 0 17)
    rw [bytes]
    exact intact
  · exact ⟨by decide, by decide, by decide, by decide⟩

theorem witness_StepKeepsTheInvariant :
    ({ inPayload (h 0 3 ++ [0x31]) 4 with inputs := [⟨.event, [0x80, 0x2E]⟩] } : State).Inv
    ∧ ∃ t, step { inPayload (h 0 3 ++ [0x31]) 4 with inputs := [⟨.event, [0x80, 0x2E]⟩] } = .next t :=
  ⟨inPayload_inv, _, rfl⟩

/-- Bytes that are no input are refused under the invariant. -/
theorem witness_NoStepFaultsUnderTheInvariant :
    ({ inDone (almost ++ [0x6D]) 1 0x01 with inputs := [⟨.event, [0x84]⟩] } : State).Inv
    ∧ step { inDone (almost ++ [0x6D]) 1 0x01 with inputs := [⟨.event, [0x84]⟩] }
      = .refused (.undecodable (.notAnEvent 0x84)) := ⟨inDone_inv, rfl⟩

theorem witness_CellsHoldValuesExactlyBelowTheLength : (inDone (almost ++ [0x6D]) 1 0x01).Inv := inDone_inv

end Sys2Proof.Tests
end

/-! PROOFS. The statements on spec/00_scope.md: what a step is (R10) and what an input returns (R9, R11). -/

namespace Sys2Proof.Machine

/-! ### The step (R10) -/

/-- R10: with nothing to take, a step does nothing. -/
theorem step_of_takeInput_none (s : State) (h : takeInput s.rxAccept s.inputs = none) : step s = .next s := by
  simp only [step, h]

/-- R10: a step that takes bytes of an instruction is its `exec`, the bytes it leaves still presented. -/
theorem step_of_takeInput_some (s : State) (t : Taken) (i : Instr) (rest : List Byte)
    (ht : takeInput s.rxAccept s.inputs = some t) (hd : decode t.chunk.port t.chunk.bytes = .ok (i, rest)) :
    step s = exec i { s with inputs := t.remaining rest } := by
  simp only [step, ht, hd]

/-- A byte string read to its end leaves no input of no bytes behind. -/
theorem remaining_eq (t : Taken) (rest : List Byte) :
    t.remaining rest = t.before ++ (if rest = [] then [] else [⟨t.chunk.port, rest⟩]) ++ t.after := by
  simp only [Taken.remaining, List.isEmpty_iff]

/-! ### The events (R11, R193) -/

/-- R201: the two things an end of stream can do. -/
theorem execRxEof_cases (s t : State) (h : execRxEof s = .next t) :
    (s.busy = false ∧ t = s) ∨ (s.busy = true ∧ t = silent (finish .connReset s)) := by
  unfold execRxEof State.rxAccept at h
  cases hb : s.busy <;> rw [hb] at h <;> cases h
  · exact .inl ⟨rfl, rfl⟩
  · exact .inr ⟨rfl, rfl⟩

/-- R202: the two things a transport error can do. -/
theorem execRxError_cases (code : Word32) (s t : State) (h : execRxError code s = .next t) :
    (s.busy = false ∧ t = s) ∨
    (s.busy = true ∧ t = silent (finish .transportError { s with rxErrcode := code })) := by
  unfold execRxError State.rxAccept at h
  cases hb : s.busy <;> rw [hb] at h <;> cases h
  · exact .inl ⟨rfl, rfl⟩
  · exact .inr ⟨rfl, rfl⟩

/-- R11, R200: a tick, accepted in every state, returns nothing. -/
theorem execTick_result (s t : State) (h : execTick s = .next t) : t.result = none := by
  rcases execTick_next s t h with ⟨_, rfl⟩ | ⟨_, u, _, rfl⟩
  · exact silent_result s
  · exact silent_result u

/-- R11, R270: a reset returns nothing. -/
theorem execReset_result (s t : State) (h : execReset s = .next t) : t.result = none := by
  cases h; rfl

/-! ### The host operations (R9, R11) -/

/-- R9, R11: what a host operation returns: `OK` with a value, or a status of a refusal and no other change. -/
theorem exec_host_refuses_or_ok (i : Instr) (s t : State) (hp : portOf i ≠ .event) (h : exec i s = .next t) :
    Refuses s t ∨ ∃ v, t.result = some ⟨.ok, v⟩ := by
  rcases exec_host_cases i s t hp h with hr | ⟨u, v, _, rfl⟩ | ⟨_, _, _, _, _, _, rfl⟩
  · exact .inl hr
  · exact .inr ⟨v, answerWith_result v u⟩
  · exact .inr ⟨_, answerWith_result _ _⟩

end Sys2Proof.Machine

namespace Sys2Proof.Proofs

open Machine Statements

/-- Settles O33: the step's own equation, with what stays presented written out. -/
theorem stepRunsTheDecodedInput : Obligations.StepRunsTheDecodedInput := by
  intro s t i rest ht hd
  rw [step_of_takeInput_some s t i rest ht hd, remaining_eq]

/-- Settles O34: from an empty queue nothing is taken. -/
theorem stepWithoutInputDoesNothing : Obligations.StepWithoutInputDoesNothing := by
  intro s hs
  have nothingTaken : takeInput s.rxAccept s.inputs = none := by rw [hs]; rfl
  exact step_of_takeInput_none s nothingTaken

/-- Settles O21, event by event: `TICK` and `RESET` are always accepted, the three receive events only while busy. -/
theorem eventsReturnNothing : Obligations.EventsReturnNothing := by
  intro i s t hp h
  cases i <;> simp only [portOf, reduceCtorEq] at hp
  case rxByte b =>
    rcases execRxByte_next b s t h with unaccepted | ⟨_, u, _, rfl⟩ | ⟨_, u, _, rfl⟩
    · exact .inr ⟨.inl ⟨b, rfl⟩, unaccepted⟩
    · exact .inl (silent_result u)
    · exact .inl (silent_result u)
  case rxEof =>
    rcases execRxEof_cases s t h with unaccepted | ⟨_, rfl⟩
    · exact .inr ⟨.inr (.inl rfl), unaccepted⟩
    · exact .inl (silent_result _)
  case rxError code =>
    rcases execRxError_cases code s t h with unaccepted | ⟨_, rfl⟩
    · exact .inr ⟨.inr (.inr ⟨code, rfl⟩), unaccepted⟩
    · exact .inl (silent_result _)
  case tick => exact .inl (execTick_result s t h)
  case reset => exact .inl (execReset_result s t h)

/-- Settles O46: a host operation is refused by `raise`, which changes nothing, or its status is `OK`. -/
theorem refusedOperationsChangeNothing : Obligations.RefusedOperationsChangeNothing := by
  intro i s t hp h
  rcases exec_host_refuses_or_ok i s t hp h with ⟨e, _, notNone, rfl⟩ | ⟨v, hv⟩
  · exact ⟨e, .none, raise_result e s, notNone, fun _ => rfl⟩
  · exact ⟨.ok, v, hv, by decide, fun notOk => absurd rfl notOk⟩

end Sys2Proof.Proofs

/-! PROOFS. The statements on spec/10_state.md: what writes each field, the codes, and the invariant of R32 and R51. -/

namespace Sys2Proof.Machine

open Statements

/-! ### What an input leaves unchanged -/

/-- `s` with the receive controller's fields (R39 to R45) and the result output of `u`. -/
def State.withReceptionOf (s u : State) : State :=
  { s with
    rxState := u.rxState
    rxStatus := u.rxStatus
    rxErrcode := u.rxErrcode
    rxBuf := u.rxBuf
    rxLen := u.rxLen
    rxRemaining := u.rxRemaining
    timer := u.timer
    result := u.result }

/-- R190: an event other than reset writes the receive controller's fields alone. -/
theorem exec_event_withReceptionOf (i : Instr) (s t : State) (hp : portOf i = .event) (hr : i ≠ .reset)
    (h : exec i s = .next t) : ∃ u, t = s.withReceptionOf u := by
  refine ⟨t, ?_⟩
  cases i <;> simp only [portOf, reduceCtorEq] at hp
  case rxByte b =>
    rcases execRxByte_cases b s t h with ⟨_, rfl⟩ | ⟨_, u, hu, ended⟩
    · rfl
    · obtain ⟨_, _, rfl⟩ := (storeByte_ok b s u).1 hu
      rcases ended with ⟨_, _, rfl⟩ | rfl | rfl | ⟨_, rfl⟩ <;> rfl
  case rxEof => rcases execRxEof_cases s t h with ⟨_, rfl⟩ | ⟨_, rfl⟩ <;> rfl
  case rxError code => rcases execRxError_cases code s t h with ⟨_, rfl⟩ | ⟨_, rfl⟩ <;> rfl
  case tick => rcases execTick_cases s t h with ⟨_, rfl⟩ | ⟨_, _, rfl⟩ | ⟨_, _, _, rfl⟩ <;> rfl
  case reset => exact absurd rfl hr

/-- The configuration registers (R33, R34, R36, R37) that `i` is not the setter of are the same in both states. -/
def ConfigurationFrame (i : Instr) (s t : State) : Prop :=
  ((∀ a, i ≠ .setSlave a) → t.slave = s.slave ∧ t.slaveValid = s.slaveValid)
    ∧ ((∀ a, i ≠ .setOwnAddr a) → t.ownAddr = s.ownAddr)
    ∧ ((∀ a b, i ≠ .setRespTimeout a b) → t.respToSec = s.respToSec ∧ t.respToUsec = s.respToUsec)
    ∧ ((∀ a b, i ≠ .setByteTimeout a b) → t.byteToSec = s.byteToSec ∧ t.byteToUsec = s.byteToUsec)

/-- What writes no configuration register leaves each as it was. -/
theorem configurationFrame_unchanged (i : Instr) (s : State) : ConfigurationFrame i s s :=
  ⟨fun _ => ⟨rfl, rfl⟩, fun _ => rfl, fun _ => ⟨rfl, rfl⟩, fun _ => ⟨rfl, rfl⟩⟩

/-- R131 to R134: a host operation that returns `OK` writes the configuration register it is the setter of, if any. -/
theorem HostUpdate.configurationFrame {s u : State} {i : Instr} (h : HostUpdate s i u) : ConfigurationFrame i s u := by
  cases h with
  | setSlave a _ => exact ⟨fun other => absurd rfl (other a), fun _ => rfl, fun _ => ⟨rfl, rfl⟩, fun _ => ⟨rfl, rfl⟩⟩
  | setOwnAddr a _ =>
    exact ⟨fun _ => ⟨rfl, rfl⟩, fun other => absurd rfl (other a), fun _ => ⟨rfl, rfl⟩, fun _ => ⟨rfl, rfl⟩⟩
  | setRespTimeout a b _ =>
    exact ⟨fun _ => ⟨rfl, rfl⟩, fun _ => rfl, fun other => absurd rfl (other a b), fun _ => ⟨rfl, rfl⟩⟩
  | setByteTimeout a b _ =>
    exact ⟨fun _ => ⟨rfl, rfl⟩, fun _ => rfl, fun _ => ⟨rfl, rfl⟩, fun other => absurd rfl (other a b)⟩
  | nothing | crcInit | crcUpdate _ | rxStart _ => exact configurationFrame_unchanged _ s

/-- R33, R34, R36, R37 for every input but reset. -/
theorem exec_configurationFrame (i : Instr) (s t : State) (h : exec i s = .next t) (hr : i ≠ .reset) :
    ConfigurationFrame i s t := by
  by_cases hp : portOf i = .event
  · obtain ⟨u, rfl⟩ := exec_event_withReceptionOf i s t hp hr h
    exact configurationFrame_unchanged i s
  · rcases exec_host_cases i s t hp h with ⟨e, _, _, rfl⟩ | ⟨u, v, written, rfl⟩ | ⟨cmd, data, _, _, _, _, rfl⟩
    · exact configurationFrame_unchanged i s
    · exact written.configurationFrame
    · exact configurationFrame_unchanged i s

/-- R5: no input writes the parameters. -/
theorem exec_params (i : Instr) (s t : State) (h : exec i s = .next t) : t.params = s.params := by
  by_cases hr : i = .reset
  · subst hr; cases h; rfl
  by_cases hp : portOf i = .event
  · obtain ⟨u, rfl⟩ := exec_event_withReceptionOf i s t hp hr h
    rfl
  · rcases exec_host_cases i s t hp h with ⟨e, _, _, rfl⟩ | ⟨u, v, written, rfl⟩ | ⟨cmd, data, _, _, _, _, rfl⟩
    · rfl
    · cases written <;> rfl
    · rfl

/-! ### The sequence number and the request record (R35, R46) -/

/-- R91, R172: the frame of a request, written out field by field. -/
theorem requestFrame_eq_wireFrame (s : State) (cmd : Byte) (data : List Byte) :
    requestFrame s cmd data = wireFrame s.params.preamble s.slave s.ownAddr s.seq cmd data := by
  have body : buildFrameBody s cmd data = s.params.preamble.toList
      ++ [s.slave, s.ownAddr, hi8 s.seq, lo8 s.seq, cmd, hi8 (BitVec.ofNat 16 data.length),
        lo8 (BitVec.ofNat 16 data.length)] ++ data := by
    simp [buildFrameBody, frameBytes, be16Bytes, lengthBytes]
  simp only [requestFrame, finalize, finalizeWith, crcWireOrder, trailer, body, wireFrame]

/-- R173, R174: the state after a build, with its frame written out. -/
theorem afterBuild_eq_built (cmd : Byte) (data : List Byte) (s : State) : afterBuild cmd data s = built cmd data s := by
  simp only [afterBuild, built, answerWith, requestFrame_eq_wireFrame]

/-- R46: the fields a build writes are the same in both states. -/
def SameRequest (s t : State) : Prop := t.seq = s.seq ∧ t.reqValid = s.reqValid ∧ t.request = s.request

/-- R35, R46: a host operation that is no build writes none of them. -/
theorem HostUpdate.sameRequest {s u : State} {i : Instr} (h : HostUpdate s i u) : SameRequest s u := by
  cases h <;> exact ⟨rfl, rfl, rfl⟩

/-- R35, R46 for every input but reset. -/
theorem exec_sameRequest_or_built (i : Instr) (s t : State) (h : exec i s = .next t) (hr : i ≠ .reset) :
    SameRequest s t ∨ ∃ cmd data, i.core = .txBuild cmd data ∧ mayBuild data s ∧ t = built cmd data s := by
  by_cases hp : portOf i = .event
  · obtain ⟨u, rfl⟩ := exec_event_withReceptionOf i s t hp hr h
    exact .inl ⟨rfl, rfl, rfl⟩
  · rcases exec_host_cases i s t hp h with
      ⟨e, _, _, rfl⟩ | ⟨u, v, written, rfl⟩ | ⟨cmd, data, hcore, idle, valid, fits, rfl⟩
    · exact .inl ⟨rfl, rfl, rfl⟩
    · exact .inl written.sameRequest
    · exact .inr ⟨cmd, data, hcore, ⟨idle, fits, valid⟩, afterBuild_eq_built cmd data s⟩

/-! ### The decoder never answers a command code's name (notes/assumptions/4.md) -/

/-- R104: what format H1 answers is the operation on some operand, and so for the three formats below. -/
theorem formatH1_ok {make : Byte → Instr} {l rest : List Byte} {i : Instr} (h : formatH1 make l = .ok (i, rest)) :
    ∃ a, i = make a := by
  unfold formatH1 at h
  split at h <;> cases h
  exact ⟨_, rfl⟩

theorem formatH2_ok {make : Word32 → Word32 → Instr} {l rest : List Byte} {i : Instr}
    (h : formatH2 make l = .ok (i, rest)) : ∃ a b, i = make a b := by
  unfold formatH2 at h
  split at h <;> cases h
  exact ⟨_, _, rfl⟩

theorem formatH3_ok {make : Byte → List Byte → Instr} {l rest : List Byte} {i : Instr}
    (h : formatH3 make l = .ok (i, rest)) : ∃ cmd data, i = make cmd data := by
  unfold formatH3 at h
  split at h
  · split at h <;> cases h
    exact ⟨_, _, rfl⟩
  · cases h

theorem formatH4_ok {make : Word32 → Instr} {l rest : List Byte} {i : Instr} (h : formatH4 make l = .ok (i, rest)) :
    ∃ a, i = make a := by
  unfold formatH4 at h
  split at h <;> cases h
  exact ⟨_, rfl⟩

/-- R105: each row of the host operation port answers an operation under its own name. -/
theorem hostOperands_core (op : Byte) (l rest : List Byte) (row : HostRow) (i : Instr)
    (h : hostOperands op l row = .ok (i, rest)) : i.core = i := by
  cases row with
  | setSlave | setOwnAddr | readReg | crcUpdate => obtain ⟨_, rfl⟩ := formatH1_ok h; rfl
  | setRespTimeout | setByteTimeout => obtain ⟨_, _, rfl⟩ := formatH2_ok h; rfl
  | crcInit | rxStart | rxConfirm => cases h; rfl
  | txBuild => obtain ⟨_, _, rfl⟩ := formatH3_ok h; rfl
  | rxRead => obtain ⟨_, rfl⟩ := formatH4_ok h; rfl
  | illegal row => cases h; cases row <;> rfl

/-- R106: so does each row of the event input. -/
theorem eventOperands_core (l rest : List Byte) (row : EventRow) (i : Instr)
    (h : eventOperands l row = .ok (i, rest)) : i.core = i := by
  cases row with
  | rxByte => obtain ⟨_, rfl⟩ := formatH1_ok h; rfl
  | rxError => obtain ⟨_, rfl⟩ := formatH4_ok h; rfl
  | rxEof | tick | reset => cases h; rfl

/-- What the decoder answers is no command code's name. -/
theorem decode_core (p : Port) (l rest : List Byte) (i : Instr) (h : decode p l = .ok (i, rest)) : i.core = i := by
  cases l with
  | nil => cases p <;> cases h
  | cons b l =>
    cases p with
    | host =>
      simp only [decode, decodeHost] at h
      split at h
      · exact hostOperands_core _ _ _ _ _ h
      · cases h
    | event =>
      simp only [decode, decodeEvent] at h
      split at h
      · exact eventOperands_core _ _ _ _ h
      · cases h

/-! ### The invariant right after reset (R5, R270) -/

/-- R37, taken apart. -/
theorem legalByte_iff (t : Timeout) : t.legalByte = true ↔ t.usec.toNat < 1000000 := by
  simp only [Timeout.legalByte, decide_eq_true_eq]

/-- R36, taken apart. -/
theorem legalResp_iff (t : Timeout) :
    t.legalResp = true ↔ t.usec.toNat < 1000000 ∧ ¬ (t.sec = 0 ∧ t.usec = 0) := by
  simp only [Timeout.legalResp, Bool.and_eq_true, legalByte_iff, Bool.not_eq_true', ← Bool.not_eq_true, beq_iff_eq]

/-- R5, R8: a pair of seconds and microseconds made from a number of microseconds has a legal number of the
latter. -/
theorem timeoutOfTicks_legalByte (n : Nat) : (Config.timeoutOfTicks n).legalByte = true := by
  rw [legalByte_iff, Config.timeoutOfTicks, BitVec.toNat_ofNat]
  omega

/-- R5, R36: where that number is not 0 and fits, the pair is no zero pair. -/
theorem timeoutOfTicks_legalResp (n : Nat) (pos : 0 < n) (fits : n < 4294967296000000) :
    (Config.timeoutOfTicks n).legalResp = true := by
  refine (legalResp_iff _).2 ⟨(legalByte_iff _).1 (timeoutOfTicks_legalByte n), ?_⟩
  simp only [Config.timeoutOfTicks, eq_zero32, BitVec.toNat_ofNat]
  omega

/-- R5, taken apart. -/
theorem params_legal_iff (p : Params) :
    p.legal = true ↔ (17 ≤ p.maxFrameLen ∧ p.maxFrameLen ≤ 65552) ∧ p.respToReset.legalResp = true
      ∧ p.byteToReset.legalByte = true := by
  simp only [Params.legal, Bool.and_eq_true, decide_eq_true_eq, and_assoc]

/-- R5: the parameters of the machine are legal, whatever they are. -/
theorem config_params_legal : Config.params.legal = true := by
  have dataFits := Config.maxData.isLt
  have respFits := Config.respToResetTicks.isLt
  refine (params_legal_iff _).2 ⟨⟨Nat.le_add_right 17 _, ?_⟩, timeoutOfTicks_legalResp _ (by omega) (by omega),
    timeoutOfTicks_legalByte _⟩
  show 17 + Config.maxData.toNat ≤ 65552
  omega

/-- R32, R270: a machine built with legal parameters meets the invariant right after reset. -/
theorem resetOf_inv (p : Params) (hp : p.legal = true) : (State.resetOf p).Inv := by
  obtain ⟨_, resp, byte⟩ := (params_legal_iff p).1 hp
  refine ⟨⟨hp, resp, byte⟩, ⟨fun _ => rfl, fun _ => ⟨rfl, rfl, rfl, rfl⟩⟩, ⟨rfl, Nat.zero_le _⟩, ⟨rfl, rfl, rfl⟩,
    fun _ => rfl, ?_, ?_, ?_⟩ <;> simp

/-! ### The configuration and the records keep the invariant (R33, R36, R37, R46) -/

/-- R36: a pair `SET_RESP_TIMEOUT` stores is legal. -/
theorem execSetRespTimeout_configLegal (sec usec : Word32) (s t : State) (hs : s.configLegal)
    (h : execSetRespTimeout sec usec s = .next t) : t.configLegal := by
  obtain ⟨params, resp, byte⟩ := hs
  simp only [execSetRespTimeout, Host.Outcome.next.injEq] at h
  subst h
  split_ifs with _ large zero
  · exact ⟨params, resp, byte⟩
  · exact ⟨params, resp, byte⟩
  · exact ⟨params, resp, byte⟩
  · exact ⟨params, (legalResp_iff _).2 ⟨Nat.lt_of_not_le large, zero⟩, byte⟩

/-- R37: a pair `SET_BYTE_TIMEOUT` stores is legal. -/
theorem execSetByteTimeout_configLegal (sec usec : Word32) (s t : State) (hs : s.configLegal)
    (h : execSetByteTimeout sec usec s = .next t) : t.configLegal := by
  obtain ⟨params, resp, byte⟩ := hs
  simp only [execSetByteTimeout, Host.Outcome.next.injEq] at h
  subst h
  split_ifs with _ large
  · exact ⟨params, resp, byte⟩
  · exact ⟨params, resp, byte⟩
  · exact ⟨params, resp, (legalByte_iff _).2 (Nat.lt_of_not_le large)⟩

/-- R32, R36, R37: only the two setters write a timeout, and they write legal ones. -/
theorem exec_configLegal (i : Instr) (s t : State) (hs : s.configLegal) (h : exec i s = .next t) (hr : i ≠ .reset) :
    t.configLegal := by
  by_cases isResp : ∃ a b, i = .setRespTimeout a b
  · obtain ⟨a, b, rfl⟩ := isResp
    exact execSetRespTimeout_configLegal a b s t hs h
  by_cases isByte : ∃ a b, i = .setByteTimeout a b
  · obtain ⟨a, b, rfl⟩ := isByte
    exact execSetByteTimeout_configLegal a b s t hs h
  obtain ⟨_, _, resp, byte⟩ := exec_configurationFrame i s t h hr
  obtain ⟨respSec, respUsec⟩ := resp fun a b e => isResp ⟨a, b, e⟩
  obtain ⟨byteSec, byteUsec⟩ := byte fun a b e => isByte ⟨a, b, e⟩
  rwa [State.configLegal, exec_params i s t h, respSec, respUsec, byteSec, byteUsec]

/-- R33, R46: what sets a valid bit writes the fields under it, and nothing clears one but reset. -/
theorem exec_recordsLegal (i : Instr) (s t : State) (hs : s.recordsLegal) (h : exec i s = .next t) (hr : i ≠ .reset) :
    t.recordsLegal := by
  by_cases hp : portOf i = .event
  · obtain ⟨u, rfl⟩ := exec_event_withReceptionOf i s t hp hr h
    exact hs
  · rcases exec_host_cases i s t hp h with ⟨e, _, _, rfl⟩ | ⟨u, v, written, rfl⟩ | ⟨cmd, data, _, _, valid, _, rfl⟩
    · exact hs
    · cases written with
      | setSlave a _ => exact ⟨fun invalid => absurd invalid (by simp), hs.2⟩
      | nothing | setOwnAddr _ _ | setRespTimeout _ _ _ | setByteTimeout _ _ _ | crcInit | crcUpdate _ | rxStart _ =>
        exact hs
    · exact ⟨hs.1, fun invalid => absurd invalid (by simp [afterBuild])⟩

/-! ### The reception keeps the invariant (R51) -/

/-- R51: the part of the invariant that is about the receive controller. -/
def State.receptionInv (s : State) : Prop := s.bufferFilled ∧ s.receptionLegal ∧ s.countersLegal

/-- R41 to R45: what holds throughout a reception, also while a byte is being taken. -/
structure State.InReception (s : State) : Prop where
  filled : s.bufferFilled
  status : s.rxStatus = .none
  errcode : s.rxErrcode = 0
  bounded : s.timer.toNat < 2 ^ 63
  armed : 1 ≤ s.timer.toNat

/-- R39, R40: while the block is busy no status is known yet. -/
theorem rxStatus_of_busy (s : State) (hs : s.receptionLegal) (hb : s.busy = true) : s.rxStatus = .none := by
  unfold State.receptionLegal at hs
  rcases (busy_iff s).1 hb with hst | hst <;> rw [hst] at hs
  · obtain ⟨_, _, status⟩ := hs; exact status
  · obtain ⟨_, _, _, status⟩ := hs; exact status

/-- R51: what the invariant says of a busy state that holds throughout the reception. -/
theorem inReception_of_busy (s : State) (hs : s.receptionInv) (hb : s.busy = true) : s.InReception := by
  obtain ⟨filled, legal, errcode, _, bounded, armed⟩ := hs
  have status := rxStatus_of_busy s legal hb
  exact ⟨filled, status, errcode (by simp [status]), bounded, armed hb⟩

/-- R51: back from a reception in `HEADER`. -/
theorem State.InReception.header_inv {s : State} (hs : s.InReception) (hst : s.rxState = .header)
    (count : s.rxLen.toNat + s.rxRemaining.toNat = 15) (left : 1 ≤ s.rxRemaining.toNat) : s.receptionInv := by
  refine ⟨hs.filled, ?_, fun _ => hs.errcode, by omega, hs.bounded, fun _ => hs.armed⟩
  rw [State.receptionLegal, hst]
  exact ⟨count, left, hs.status⟩

/-- R51: back from a reception in `PAYLOAD`. -/
theorem State.InReception.payload_inv {s : State} (hs : s.InReception) (hst : s.rxState = .payload) (n : Word16)
    (declared : dataLength s.rxBuf = some n) (count : s.rxLen.toNat + s.rxRemaining.toNat = 17 + n.toNat)
    (fits : 17 + n.toNat ≤ s.params.maxFrameLen) (header : 15 ≤ s.rxLen.toNat) (left : 1 ≤ s.rxRemaining.toNat) :
    s.receptionInv := by
  have := n.isLt
  refine ⟨hs.filled, ?_, fun _ => hs.errcode, by omega, hs.bounded, fun _ => hs.armed⟩
  rw [State.receptionLegal, hst, declared]
  exact ⟨⟨count, fits⟩, header, left, hs.status⟩

/-- R194: a reception that ends in error meets the invariant, whatever it had received. -/
theorem finish_error_inv (e : Status) (s : State) (he : e.endsInError) (filled : s.bufferFilled)
    (errcode : e ≠ .transportError → s.rxErrcode = 0) (left : s.rxRemaining.toNat ≤ 65537)
    (bounded : s.timer.toNat < 2 ^ 63) : (finish e s).receptionInv := by
  have notOk : e ≠ .ok := by rintro rfl; simp [Status.endsInError] at he
  refine ⟨filled, ?_, errcode, left, bounded, by simp⟩
  rw [State.receptionLegal, finish_rxState, if_neg notOk]
  exact he

/-- R51, `DONE`: a complete frame whose integrity check holds. -/
theorem finish_ok_inv {s : State} (hs : s.InReception) (n : Word16) (declared : dataLength s.rxBuf = some n)
    (count : s.rxLen.toNat = 17 + n.toNat) (noneLeft : s.rxRemaining = 0) (f : List Byte)
    (read : Memory.readRange s.rxBuf 0 s.rxLen.toNat = some f) (intact : integrityOk f = true) :
    (finish .ok s).receptionInv := by
  refine ⟨hs.filled, ?_, fun _ => hs.errcode, by simp [noneLeft], hs.bounded, by simp⟩
  simp only [State.receptionLegal, finish_rxState, if_true, finish_rxRemaining, finish_rxBuf, finish_rxLen,
    finish_rxStatus, declared, read]
  exact ⟨noneLeft, count, trivial, intact⟩

/-- R8, R36, R37: a timeout lasts less than 2^63 microseconds. -/
theorem timeoutTicks_lt (sec usec : Word32) : (timeoutTicks sec usec).toNat < 2 ^ 63 := by
  have := sec.isLt
  have := usec.isLt
  rw [timeoutTicks_toNat]
  omega

/-- R192: re-arming leaves the reception going. -/
theorem State.InReception.rearm {s : State} (hs : s.InReception) : (rearm s).InReception := by
  refine ⟨hs.filled, hs.status, hs.errcode, ?_, ?_⟩ <;> rw [rearm_timer] <;> split_ifs with disabled
  · exact hs.bounded
  · exact timeoutTicks_lt _ _
  · exact hs.armed
  · have := mt (eq_zero64 _).2 disabled
    omega

/-- R195: a reception starts within the invariant, its deadline a legal response timeout. -/
theorem startReception_inv (s : State) (hs : s.configLegal) : (startReception s).receptionInv := by
  obtain ⟨_, resp, _⟩ := hs
  have armed : 1 ≤ (respTicks s).toNat := by
    obtain ⟨_, notZeroPair⟩ := (legalResp_iff _).1 resp
    have notZero : respTicks s ≠ 0 := mt (timeoutTicks_eq_zero _ _).1 notZeroPair
    have := mt (eq_zero64 _).2 notZero
    omega
  have going : (startReception s).InReception := ⟨⟨rfl, Nat.zero_le _⟩, rfl, rfl, timeoutTicks_lt _ _, armed⟩
  exact going.header_inv rfl rfl (by simp)

/-- R196, R198: how a stored byte moves the counters. -/
theorem storeByte_counts (b : Byte) (s u : State) (hp : s.params.legal = true) (h : storeByte b s = .ok u) :
    u.rxLen.toNat = s.rxLen.toNat + 1 ∧ u.rxRemaining.toNat + 1 = s.rxRemaining.toNat := by
  obtain ⟨room, left, rfl⟩ := (storeByte_ok b s u).1 h
  obtain ⟨⟨_, frameMax⟩, _⟩ := (params_legal_iff s.params).1 hp
  have left' := mt (eq_zero32 _).2 left
  refine ⟨toNat_succ32 _ (by omega), ?_⟩
  show (s.rxRemaining - 1).toNat + 1 = _
  rw [toNat_pred32 _ left']
  omega

/-- R196, R198: storing a byte leaves the reception going, in the state it is in. -/
theorem State.InReception.storeByte {s : State} (hs : s.InReception) (b : Byte) (u : State) (hp : s.params.legal = true)
    (h : storeByte b s = .ok u) : u.InReception ∧ u.rxState = s.rxState ∧ u.params = s.params := by
  obtain ⟨longer, _⟩ := storeByte_counts b s u hp h
  obtain ⟨room, _, rfl⟩ := (storeByte_ok b s u).1 h
  refine ⟨⟨⟨?_, ?_⟩, hs.status, hs.errcode, hs.bounded, hs.armed⟩, rfl, rfl⟩
  · rw [longer]; exact filled_write _ _ _ hs.filled.1
  · rw [longer]; exact room

/-- R91: a byte stored past the header leaves the declared length. -/
theorem storeByte_dataLength (b : Byte) (s u : State) (header : 15 ≤ s.rxLen.toNat) (h : storeByte b s = .ok u) :
    dataLength u.rxBuf = dataLength s.rxBuf := by
  obtain ⟨_, _, rfl⟩ := (storeByte_ok b s u).1 h
  exact dataLength_write _ _ _ header

/-- R197: a complete header is refused for its length, or the payload phase starts with `n + 2` bytes to come. -/
theorem headerComplete_inv (s t : State) (hs : s.InReception) (full : s.rxLen.toNat = 15) (left : s.rxRemaining = 0)
    (h : headerComplete s = .ok t) : t.receptionInv := by
  obtain ⟨n, declared, ⟨_, rfl⟩ | ⟨fits, rfl⟩⟩ := (headerComplete_ok s t).1 h
  · exact finish_error_inv _ _ (by simp [Status.endsInError]) hs.filled (fun _ => hs.errcode) (by simp [left]) hs.bounded
  · have := n.isLt
    have toCome : (BitVec.ofNat 32 (n.toNat + 2)).toNat = n.toNat + 2 := by rw [BitVec.toNat_ofNat]; omega
    have going : State.InReception { s with rxRemaining := BitVec.ofNat 32 (n.toNat + 2), rxState := .payload } :=
      ⟨hs.filled, hs.status, hs.errcode, hs.bounded, hs.armed⟩
    refine going.rearm.payload_inv rfl n declared ?_ fits full.ge ?_
    · rw [rearm_rxLen, rearm_rxRemaining, toCome, full]; omega
    · rw [rearm_rxRemaining, toCome]; omega

/-- R198, R199: a complete frame ends the reception, in `DONE` only where its integrity check holds. -/
theorem frameComplete_inv (s t : State) (hs : s.InReception) (n : Word16) (declared : dataLength s.rxBuf = some n)
    (full : s.rxLen.toNat = 17 + n.toNat) (left : s.rxRemaining = 0) (h : frameComplete s = .ok t) :
    t.receptionInv := by
  obtain ⟨f, read, rfl⟩ := (frameComplete_ok s t).1 h
  split_ifs with intact
  · exact finish_ok_inv hs n declared full left f read intact
  · exact finish_error_inv _ _ (by simp [Status.endsInError]) hs.filled (fun _ => hs.errcode) (by simp [left]) hs.bounded

/-- R196: a byte in `HEADER` keeps `RX_LEN + RX_REMAINING = 15` until the header is complete. -/
theorem headerByte_inv (b : Byte) (s t : State) (hp : s.params.legal = true) (hs : s.receptionInv)
    (hst : s.rxState = .header) (h : headerByte b s = .ok t) : t.receptionInv := by
  obtain ⟨u, stored, ending⟩ := (headerByte_ok b s t).1 h
  obtain ⟨longer, fewer⟩ := storeByte_counts b s u hp stored
  obtain ⟨going, sameState, _⟩ := (inReception_of_busy s hs ((busy_iff s).2 (.inl hst))).storeByte b u hp stored
  have count : s.rxLen.toNat + s.rxRemaining.toNat = 15 := by
    obtain ⟨_, legal, _⟩ := hs
    rw [State.receptionLegal, hst] at legal
    exact legal.1
  rcases ending with ⟨left, complete⟩ | ⟨left, rfl⟩
  · have := (eq_zero32 _).1 left
    exact headerComplete_inv u t going (by omega) left complete
  · have := mt (eq_zero32 _).2 left
    exact going.header_inv (sameState.trans hst) (by omega) (by omega)

/-- R198: a byte in `PAYLOAD` keeps `RX_LEN + RX_REMAINING` at the declared length until the frame is complete. -/
theorem payloadByte_inv (b : Byte) (s t : State) (hp : s.params.legal = true) (hs : s.receptionInv)
    (hst : s.rxState = .payload) (h : payloadByte b s = .ok t) : t.receptionInv := by
  obtain ⟨u, stored, ending⟩ := (payloadByte_ok b s t).1 h
  obtain ⟨longer, fewer⟩ := storeByte_counts b s u hp stored
  obtain ⟨going, sameState, sameParams⟩ :=
    (inReception_of_busy s hs ((busy_iff s).2 (.inr hst))).storeByte b u hp stored
  obtain ⟨n, declared, count, fits, header⟩ : ∃ n, dataLength s.rxBuf = some n
      ∧ s.rxLen.toNat + s.rxRemaining.toNat = 17 + n.toNat ∧ 17 + n.toNat ≤ s.params.maxFrameLen
      ∧ 15 ≤ s.rxLen.toNat := by
    obtain ⟨_, legal, _⟩ := hs
    rw [State.receptionLegal, hst] at legal
    obtain ⟨counts, header, _⟩ := legal
    cases declared : dataLength s.rxBuf with
    | none => rw [declared] at counts; exact counts.elim
    | some n => rw [declared] at counts; exact ⟨n, rfl, counts.1, counts.2, header⟩
  have declared' : dataLength u.rxBuf = some n := (storeByte_dataLength b s u header stored).trans declared
  rcases ending with ⟨left, complete⟩ | ⟨left, rfl⟩
  · have := (eq_zero32 _).1 left
    exact frameComplete_inv u t going n declared' (by omega) left complete
  · have := mt (eq_zero32 _).2 left
    refine going.rearm.payload_inv (sameState.trans hst) n declared' ?_ (sameParams ▸ fits) ?_ ?_
    · rw [rearm_rxLen, rearm_rxRemaining]; omega
    · rw [rearm_rxLen]; omega
    · rw [rearm_rxRemaining]; omega

/-- R200: a tick counts a reception's wait down, or ends it in a timeout. -/
theorem execTick_inv (s t : State) (hs : s.receptionInv) (h : execTick s = .next t) : t.receptionInv := by
  rcases execTick_cases s t h with ⟨_, rfl⟩ | ⟨hb, last, rfl⟩ | ⟨hb, notZero, notLast, rfl⟩
  · exact hs
  · have going := inReception_of_busy s hs hb
    obtain ⟨_, _, _, left, _⟩ := hs
    exact finish_error_inv .timeout { s with timer := 0 } (by simp [Status.endsInError]) going.filled
      (fun _ => going.errcode) left (by simp)
  · obtain ⟨filled, legal, errcode, left, bounded, _⟩ := hs
    have positive := mt (eq_zero64 _).2 notZero
    have notOne : s.timer.toNat ≠ 1 := fun one => notLast (BitVec.eq_of_toNat_eq one)
    have counted := toNat_pred64 s.timer positive
    refine ⟨filled, legal, errcode, left, ?_, fun _ => ?_⟩
    · show (s.timer - 1).toNat < _
      omega
    · show 1 ≤ (s.timer - 1).toNat
      omega

/-- R51: every event but reset keeps the reception's part of the invariant. -/
theorem exec_event_receptionInv (i : Instr) (s t : State) (hp : portOf i = .event) (hr : i ≠ .reset)
    (legal : s.params.legal = true) (hs : s.receptionInv) (h : exec i s = .next t) : t.receptionInv := by
  cases i <;> simp only [portOf, reduceCtorEq] at hp
  case rxByte b =>
    rcases execRxByte_next b s t h with ⟨_, rfl⟩ | ⟨hst, u, taken, rfl⟩ | ⟨hst, u, taken, rfl⟩
    · exact hs
    · exact headerByte_inv b s u legal hs hst taken
    · exact payloadByte_inv b s u legal hs hst taken
  case rxEof =>
    rcases execRxEof_cases s t h with ⟨_, rfl⟩ | ⟨hb, rfl⟩
    · exact hs
    · have going := inReception_of_busy s hs hb
      obtain ⟨_, _, _, left, _⟩ := hs
      exact finish_error_inv .connReset s (by simp [Status.endsInError]) going.filled (fun _ => going.errcode) left
        going.bounded
  case rxError code =>
    rcases execRxError_cases code s t h with ⟨_, rfl⟩ | ⟨hb, rfl⟩
    · exact hs
    · have going := inReception_of_busy s hs hb
      obtain ⟨_, _, _, left, _⟩ := hs
      exact finish_error_inv .transportError { s with rxErrcode := code } (by simp [Status.endsInError]) going.filled
        (fun other => absurd rfl other) left going.bounded
  case tick => exact execTick_inv s t hs h
  case reset => exact absurd rfl hr

/-- R51: so does every host operation: only `RX_START` writes those fields. -/
theorem exec_host_receptionInv (i : Instr) (s t : State) (hp : portOf i ≠ .event) (config : s.configLegal)
    (hs : s.receptionInv) (h : exec i s = .next t) : t.receptionInv := by
  rcases exec_host_cases i s t hp h with ⟨e, _, _, rfl⟩ | ⟨u, v, written, rfl⟩ | ⟨cmd, data, _, _, _, _, rfl⟩
  · exact hs
  · cases written with
    | rxStart _ => exact startReception_inv s config
    | nothing | setSlave _ _ | setOwnAddr _ _ | setRespTimeout _ _ _ | setByteTimeout _ _ _ | crcInit | crcUpdate _ =>
      exact hs
  · exact hs

/-- R32, R51: every input keeps the invariant. -/
theorem exec_inv (i : Instr) (s t : State) (hs : s.Inv) (h : exec i s = .next t) : t.Inv := by
  obtain ⟨config, records, reception⟩ := hs
  by_cases hr : i = .reset
  · subst hr; cases h
    exact resetOf_inv s.params config.1
  have reception' : t.receptionInv := by
    by_cases hp : portOf i = .event
    · exact exec_event_receptionInv i s t hp hr config.1 reception h
    · exact exec_host_receptionInv i s t hp config reception h
  exact ⟨exec_configLegal i s t config h hr, exec_recordsLegal i s t records h hr, reception'⟩

end Sys2Proof.Machine

namespace Sys2Proof.Proofs

open Machine Statements

/-- Settles O55: the step does nothing, or it is the `exec` of one input from a state with other presented inputs, which
the invariant does not speak of. -/
theorem stepKeepsTheInvariant : Obligations.StepKeepsTheInvariant := by
  intro s t hs h
  rcases step_next_cases s t h with ⟨_, rfl⟩ | ⟨k, i, rest, _, _, ran⟩
  · exact hs
  · exact exec_inv i { s with inputs := k.remaining rest } t hs ran

/-- Settles O37: an event writes no configuration register, and a host operation at most the one it is the setter of. -/
theorem configurationChangesOnlyBySetters : Obligations.ConfigurationChangesOnlyBySetters :=
  fun i s t h hr => exec_configurationFrame i s t h hr

/-- Settles O38: an event writes none of these fields, and a host operation only where it is a build that succeeds. -/
theorem requestRecordChangesOnlyByABuild : Obligations.RequestRecordChangesOnlyByABuild :=
  fun i s t h hr => exec_sameRequest_or_built i s t h hr

/-- Settles O39: the input a step takes is a reset, a build, or changes neither; it is never a command code's name. -/
theorem onlyTxBuildAndResetWriteTheSequence : Obligations.OnlyTxBuildAndResetWriteTheSequence := by
  intro s t h
  rcases step_next_cases s t h with ⟨_, rfl⟩ | ⟨k, i, rest, taken, decoded, ran⟩
  · exact .inl ⟨rfl, rfl, rfl⟩
  by_cases hr : i = .reset
  · subst hr; exact .inr ⟨k, rest, taken, .inr decoded⟩
  rcases exec_sameRequest_or_built i _ t ran hr with unchanged | ⟨cmd, data, hcore, allowed, rfl⟩
  · exact .inl unchanged
  · have ownName : i = .txBuild cmd data := (decode_core _ _ _ _ decoded).symm.trans hcore
    subst ownName
    exact .inr ⟨k, rest, taken, .inl ⟨cmd, data, decoded, allowed, rfl⟩⟩

/-- Settles O57: R51 has the cells listed at exactly the offsets below `RX_LEN`. -/
theorem cellsHoldValuesExactlyBelowTheLength : Obligations.CellsHoldValuesExactlyBelowTheLength := by
  rintro s ⟨_, _, ⟨filled, _⟩, _, _⟩ a
  exact filled_isSome s.rxBuf s.rxLen.toNat filled a

/-- Settles O22: the codes are the listed ones by definition; being busy is read off the state. -/
theorem rxCodesAsListed : Obligations.RxCodesAsListed :=
  ⟨rfl, rfl, rfl, rfl, rfl, rfl, rfl, rfl, rfl, rfl, rfl, rfl, rfl, rfl, rfl, rfl, rfl, rfl, rfl, rfl, busy_iff⟩

/-- Settles O54: the opaque parameters are legal by their types. -/
theorem invariantHoldsAtReset : Obligations.InvariantHoldsAtReset := resetOf_inv Config.params config_params_legal

end Sys2Proof.Proofs

/-! PROOFS. The statement on spec/20_memory.md: what writes the receive buffer (R71). -/

namespace Sys2Proof.Machine

/-! ### What an input does to the receive buffer (R42, R71) -/

/-- R196, R198: a received byte is written at offset `RX_LEN` where it is accepted; what ends or re-arms the reception
after it writes no cell. -/
theorem execRxByte_rxBuf (b : Byte) (s t : State) (h : execRxByte b s = .next t) :
    t.rxBuf = s.rxBuf ∨ t.rxBuf = Memory.write s.rxBuf s.rxLen.toNat b := by
  rcases execRxByte_cases b s t h with ⟨_, rfl⟩ | ⟨_, u, stored, ended⟩
  · exact .inl rfl
  · obtain ⟨_, _, rfl⟩ := (storeByte_ok b s u).1 stored
    rcases ended with ⟨_, _, rfl⟩ | rfl | rfl | ⟨_, rfl⟩ <;> exact .inr rfl

/-- R71: an event other than reset leaves the buffer alone, or is a received byte that is written at offset `RX_LEN`. -/
theorem exec_event_rxBuf (i : Instr) (s t : State) (hp : portOf i = .event) (hr : i ≠ .reset)
    (h : exec i s = .next t) :
    t.rxBuf = s.rxBuf ∨ ∃ b, i = .rxByte b ∧ t.rxBuf = Memory.write s.rxBuf s.rxLen.toNat b := by
  cases i <;> simp only [portOf, reduceCtorEq] at hp
  case rxByte b => exact (execRxByte_rxBuf b s t h).imp_right fun written => ⟨b, rfl, written⟩
  case rxEof => rcases execRxEof_cases s t h with ⟨_, rfl⟩ | ⟨_, rfl⟩ <;> exact .inl rfl
  case rxError code => rcases execRxError_cases code s t h with ⟨_, rfl⟩ | ⟨_, rfl⟩ <;> exact .inl rfl
  case tick => rcases execTick_cases s t h with ⟨_, rfl⟩ | ⟨_, _, rfl⟩ | ⟨_, _, _, rfl⟩ <;> exact .inl rfl
  case reset => exact absurd rfl hr

/-- R195: of the host operations that return `OK`, only `RX_START` writes the buffer, and it clears it. -/
theorem HostUpdate.rxBuf {s u : State} {i : Instr} (h : HostUpdate s i u) :
    u.rxBuf = s.rxBuf ∨ (i = .rxStart ∧ u.rxBuf = Memory.cleared) := by
  cases h with
  | rxStart _ => exact .inr ⟨rfl, rfl⟩
  | nothing | setSlave _ _ | setOwnAddr _ _ | setRespTimeout _ _ _ | setByteTimeout _ _ _ | crcInit | crcUpdate _ =>
    exact .inl rfl

/-- R71: a host operation leaves the buffer alone, or is an `RX_START` that clears it. -/
theorem exec_host_rxBuf (i : Instr) (s t : State) (hp : portOf i ≠ .event) (h : exec i s = .next t) :
    t.rxBuf = s.rxBuf ∨ (i = .rxStart ∧ t.rxBuf = Memory.cleared) := by
  rcases exec_host_cases i s t hp h with ⟨e, _, _, rfl⟩ | ⟨u, v, written, rfl⟩ | ⟨cmd, data, _, _, _, _, rfl⟩
  · exact .inl rfl
  · exact written.rxBuf
  · exact .inl rfl

/-- R71, R270: the three things an input can do to the buffer: nothing, one write at offset `RX_LEN`, clear it. -/
theorem exec_rxBuf_cases (i : Instr) (s t : State) (h : exec i s = .next t) :
    t.rxBuf = s.rxBuf
    ∨ (∃ b, i = .rxByte b ∧ t.rxBuf = Memory.write s.rxBuf s.rxLen.toNat b)
    ∨ ((i = .rxStart ∨ i = .reset) ∧ t.rxBuf = Memory.cleared) := by
  by_cases hr : i = .reset
  · subst hr; cases h
    exact .inr (.inr ⟨.inr rfl, rfl⟩)
  by_cases hp : portOf i = .event
  · exact (exec_event_rxBuf i s t hp hr h).imp_right .inl
  · exact (exec_host_rxBuf i s t hp h).imp_right fun ⟨start, cleared⟩ => .inr ⟨.inl start, cleared⟩

end Sys2Proof.Machine

namespace Sys2Proof.Proofs

open Machine Statements

/-- Settles O36: the three things an input can do to the buffer, each said by what the offsets then read as. -/
theorem onlyReceptionTouchesTheBuffer : Obligations.OnlyReceptionTouchesTheBuffer := by
  intro i s t h
  rcases exec_rxBuf_cases i s t h with same | ⟨b, hi, written⟩ | ⟨hi, cleared⟩
  · exact .inl same
  · rw [written]
    exact .inr (.inl ⟨b, hi, read_write_same _ _ b, fun a other => read_write_other _ _ a b other⟩)
  · rw [cleared]
    exact .inr (.inr ⟨hi, read_cleared⟩)

end Sys2Proof.Proofs

/-! PROOFS. The statements on spec/30_encoding.md: the decoder and the encoder (R104 to R107), the frame layout (R90 to
R94), the command codes (R96 to R99) and what a response is on reception (R98, R101, R102). -/

namespace Sys2Proof

open Machine

/-! ### The rows of the opcode table (R105, R106) -/

/-- R105: a host operation's first byte selects the row that reads its operands. -/
theorem decode_host_of_row {op : Byte} {row : HostRow} (rest : List Byte) (h : hostRow op = some row) :
    decode .host (op :: rest) = hostOperands op rest row := by
  simp only [decode, decodeHost, h]

/-- R106: so does an event's code. -/
theorem decode_event_of_row {code : Byte} {row : EventRow} (rest : List Byte) (h : eventRow code = some row) :
    decode .event (code :: rest) = eventOperands rest row := by
  simp only [decode, decodeEvent, h]

/-- R105: the opcodes of a row as the spec's table lists them, without mask and match; those of an illegal row are in
`Instr.wellFormed`. -/
def HostRow.lists (op : Byte) : HostRow → Bool
  | .setSlave => op == 0x01
  | .setOwnAddr => op == 0x02
  | .setRespTimeout => op == 0x03
  | .setByteTimeout => op == 0x04
  | .readReg => op == 0x05
  | .crcInit => op == 0x10
  | .crcUpdate => op == 0x11
  | .txBuild => op == 0x20
  | .rxStart => op == 0x30
  | .rxRead => op == 0x31
  | .rxConfirm => op == 0x32
  | .illegal row => (illegalInstr op row).wellFormed

/-- R105: an opcode is read by a row that lists it. -/
theorem lists_of_hostRow {op : Byte} {row : HostRow} (h : hostRow op = some row) : row.lists op = true := by
  have everyOpcode : ∀ op : Byte, (hostRow op).all (·.lists op) = true := by decide +kernel
  simpa [h] using everyOpcode op

/-- R106: the code of an event. -/
def EventRow.code : EventRow → Byte
  | .rxByte => 0x80
  | .rxEof => 0x81
  | .rxError => 0x82
  | .tick => 0x83
  | .reset => 0xFF

/-- R106: a row is read from its own code only. -/
theorem code_of_eventRow {code : Byte} {row : EventRow} (h : eventRow code = some row) : code = row.code := by
  unfold eventRow at h
  split_ifs at h with h80 h81 h82 h83 hFF <;> cases h <;> assumption

/-- R106: a code the table does not list is no event's. -/
theorem eventRow_eq_none {code : Byte} (h : code ∉ [0x80, 0x81, 0x82, 0x83, 0xFF]) : eventRow code = none := by
  simp only [List.mem_cons, List.not_mem_nil, or_false, not_or] at h
  obtain ⟨h80, h81, h82, h83, hFF⟩ := h
  simp only [eventRow, h80, h81, h82, h83, hFF, if_false]

/-! ### What the encoder writes, decoded (R104 to R107, R136) -/

/-- R136: an illegal operation is the one byte of its opcode, whose row answers it. -/
theorem encode_of_illegal (i : Instr) (illegal : i.illegal = true) (wf : i.wellFormed = true) :
    ∃ op row, encode i = [op] ∧ hostRow op = some (.illegal row) ∧ illegalInstr op row = i := by
  cases i <;> simp only [Instr.illegal, reduceCtorEq] at illegal
  case illegalOp00 => exact ⟨0x00, .from00, rfl, by decide, rfl⟩
  case illegalOp21 => exact ⟨0x21, .from21, rfl, by decide, rfl⟩
  case illegalOp33 => exact ⟨0x33, .from33, rfl, by decide, rfl⟩
  all_goals
    rename_i op
    obtain ⟨r06, r08, r12, r14, r18, r22, r24, r28, r34, r38, r40, r80⟩ := hostRow_illegal op
  case illegalOp06To07 => exact ⟨op, .from06, rfl, r06 wf, rfl⟩
  case illegalOp08To0F => exact ⟨op, .from08, rfl, r08 wf, rfl⟩
  case illegalOp12To13 => exact ⟨op, .from12, rfl, r12 wf, rfl⟩
  case illegalOp14To17 => exact ⟨op, .from14, rfl, r14 wf, rfl⟩
  case illegalOp18To1F => exact ⟨op, .from18, rfl, r18 wf, rfl⟩
  case illegalOp22To23 => exact ⟨op, .from22, rfl, r22 wf, rfl⟩
  case illegalOp24To27 => exact ⟨op, .from24, rfl, r24 wf, rfl⟩
  case illegalOp28To2F => exact ⟨op, .from28, rfl, r28 wf, rfl⟩
  case illegalOp34To37 => exact ⟨op, .from34, rfl, r34 wf, rfl⟩
  case illegalOp38To3F => exact ⟨op, .from38, rfl, r38 wf, rfl⟩
  case illegalOp40To7F => exact ⟨op, .from40, rfl, r40 wf, rfl⟩
  case illegalOp80ToFF => exact ⟨op, .from80, rfl, r80 wf, rfl⟩

/-- What a row of illegal opcodes answers: a host operation of that kind, under its own name. -/
theorem illegalInstr_kind (op : Byte) (row : IllegalRow) :
    (illegalInstr op row).illegal = true ∧ portOf (illegalInstr op row) = .host
      ∧ (illegalInstr op row).core = illegalInstr op row := by
  cases row <;> exact ⟨rfl, rfl, rfl⟩

/-- R136: an illegal opcode is read back, and whatever follows it is dropped. -/
theorem decode_encode_of_illegal (i : Instr) (rest : List Byte) (illegal : i.illegal = true)
    (wf : i.wellFormed = true) : decode (portOf i) (encode i ++ rest) = .ok (i.core, []) := by
  obtain ⟨op, row, bytes, read, rfl⟩ := encode_of_illegal i illegal wf
  obtain ⟨_, port, core⟩ := illegalInstr_kind op row
  rw [bytes, port, core]
  exact decode_host_of_row rest read

/-- R104: the well-formedness of a payload is that its length is a u16. -/
theorem payloadFits_iff (data : List Byte) : payloadFits data = true ↔ data.length ≤ 65535 := by
  simp only [payloadFits, decide_eq_true_eq]

/-- R104 to R107: every other input is read back with its operands and leaves the bytes after it. -/
theorem decode_encode_of_legal (i : Instr) (rest : List Byte) (legal : i.illegal = false) (wf : i.wellFormed = true) :
    decode (portOf i) (encode i ++ rest) = .ok (i.core, rest) := by
  cases i <;> simp only [Instr.illegal, reduceCtorEq] at legal
  case setSlave a => exact decode_host_of_row (op := 0x01) (row := .setSlave) (a :: rest) (by decide)
  case setOwnAddr a => exact decode_host_of_row (op := 0x02) (row := .setOwnAddr) (a :: rest) (by decide)
  case readReg r => exact decode_host_of_row (op := 0x05) (row := .readReg) (r :: rest) (by decide)
  case crcUpdate b => exact decode_host_of_row (op := 0x11) (row := .crcUpdate) (b :: rest) (by decide)
  case crcInit => exact decode_host_of_row (op := 0x10) (row := .crcInit) rest (by decide)
  case rxStart => exact decode_host_of_row (op := 0x30) (row := .rxStart) rest (by decide)
  case rxConfirm => exact decode_host_of_row (op := 0x32) (row := .rxConfirm) rest (by decide)
  case setRespTimeout sec usec =>
    exact (decode_host_of_row (op := 0x03) (row := .setRespTimeout) _ (by decide)).trans
      (formatH2_bytes _ sec usec rest)
  case setByteTimeout sec usec =>
    exact (decode_host_of_row (op := 0x04) (row := .setByteTimeout) _ (by decide)).trans
      (formatH2_bytes _ sec usec rest)
  case rxRead k =>
    exact (decode_host_of_row (op := 0x31) (row := .rxRead) _ (by decide)).trans (formatH4_bytes _ k rest)
  case rxByte b => exact decode_event_of_row (code := 0x80) (row := .rxByte) (b :: rest) (by decide)
  case rxEof => exact decode_event_of_row (code := 0x81) (row := .rxEof) rest (by decide)
  case rxError code =>
    exact (decode_event_of_row (code := 0x82) (row := .rxError) _ (by decide)).trans (formatH4_bytes _ code rest)
  case tick => exact decode_event_of_row (code := 0x83) (row := .tick) rest (by decide)
  case reset => exact decode_event_of_row (code := 0xFF) (row := .reset) rest (by decide)
  case txBuild cmd data => exact decode_txBuildBytes cmd data rest ((payloadFits_iff data).1 wf)
  case cmdSetColor data => exact decode_txBuildBytes _ data rest ((payloadFits_iff data).1 wf)
  case cmdSetMode data => exact decode_txBuildBytes _ data rest ((payloadFits_iff data).1 wf)
  case cmdOta data => exact decode_txBuildBytes _ data rest ((payloadFits_iff data).1 wf)
  case cmdGetVersion data => exact decode_txBuildBytes _ data rest ((payloadFits_iff data).1 wf)
  case cmdSetOutput data => exact decode_txBuildBytes _ data rest ((payloadFits_iff data).1 wf)
  case cmdUnrecognized code data =>
    exact decode_txBuildBytes code data rest ((payloadFits_iff data).1 (Bool.and_eq_true_iff.1 wf).2)
  case cmdException code data =>
    exact decode_txBuildBytes code data rest ((payloadFits_iff data).1 (Bool.and_eq_true_iff.1 wf).2)

/-! ### What the decoder reads, encoded (R104 to R107) -/

/-- R74: four bytes are written back as they were read. -/
theorem be32Bytes_be32 (b3 b2 b1 b0 : Byte) : be32Bytes (be32 b3 b2 b1 b0) = [b3, b2, b1, b0] := by
  have h3 := b3.isLt
  have h2 := b2.isLt
  have h1 := b1.isLt
  have h0 := b0.isLt
  simp only [be32Bytes, List.cons.injEq, and_true]
  refine ⟨?_, ?_, ?_, ?_⟩ <;> apply BitVec.eq_of_toNat_eq <;>
    simp only [BitVec.extractLsb'_toNat, be32_toNat, Nat.shiftRight_eq_div_pow] <;> omega

/-- R104: the bytes format H1 reads, and so for the three formats below. -/
theorem formatH1_reads {make : Byte → Instr} {l rest : List Byte} {i : Instr} (h : formatH1 make l = .ok (i, rest)) :
    ∃ a, i = make a ∧ l = a :: rest := by
  unfold formatH1 at h
  split at h <;> cases h
  exact ⟨_, rfl, rfl⟩

theorem formatH2_reads {make : Word32 → Word32 → Instr} {l rest : List Byte} {i : Instr}
    (h : formatH2 make l = .ok (i, rest)) : ∃ a b, i = make a b ∧ l = be32Bytes a ++ be32Bytes b ++ rest := by
  unfold formatH2 at h
  split at h <;> cases h
  exact ⟨_, _, rfl, by rw [be32Bytes_be32, be32Bytes_be32]; rfl⟩

theorem formatH3_reads {make : Byte → List Byte → Instr} {l rest : List Byte} {i : Instr}
    (h : formatH3 make l = .ok (i, rest)) :
    ∃ cmd data, i = make cmd data ∧ data.length ≤ 65535 ∧ l = cmd :: (lengthBytes data.length ++ data) ++ rest := by
  unfold formatH3 at h
  split at h
  · next cmd nh nl tail =>
    split at h <;> cases h
    have lengthIs : (tail.take (be16 nh nl).toNat).length = (be16 nh nl).toNat := by rwa [List.length_take_of_le]
    have := (be16 nh nl).isLt
    refine ⟨cmd, _, rfl, by omega, ?_⟩
    rw [lengthIs]
    simp [lengthBytes, be16Bytes]
  · cases h

theorem formatH4_reads {make : Word32 → Instr} {l rest : List Byte} {i : Instr} (h : formatH4 make l = .ok (i, rest)) :
    ∃ a, i = make a ∧ l = be32Bytes a ++ rest := by
  unfold formatH4 at h
  split at h <;> cases h
  exact ⟨_, rfl, by rw [be32Bytes_be32]; rfl⟩

/-- R104 to R107: `i` is an input of the port `p` that the encoder writes as `bytes` less `rest`; an illegal opcode,
whose `rest` is dropped (notes/assumptions/11.md), only belongs to the port. -/
def StandsFor (p : Port) (bytes rest : List Byte) (i : Instr) : Prop :=
  portOf i = p ∧ i.wellFormed = true ∧ (i.illegal = false → bytes = encode i ++ rest)

/-- R105: what each row of the host operation port reads. -/
theorem hostOperands_standsFor {op : Byte} {l rest : List Byte} {row : HostRow} {i : Instr}
    (listed : row.lists op = true) (h : hostOperands op l row = .ok (i, rest)) : StandsFor .host (op :: l) rest i := by
  cases row with
  | setSlave | setOwnAddr | readReg | crcUpdate =>
    obtain ⟨a, rfl, rfl⟩ := formatH1_reads h
    obtain rfl := eq_of_beq listed
    exact ⟨rfl, rfl, fun _ => rfl⟩
  | setRespTimeout | setByteTimeout =>
    obtain ⟨a, b, rfl, rfl⟩ := formatH2_reads h
    obtain rfl := eq_of_beq listed
    exact ⟨rfl, rfl, fun _ => rfl⟩
  | crcInit | rxStart | rxConfirm =>
    cases h
    obtain rfl := eq_of_beq listed
    exact ⟨rfl, rfl, fun _ => rfl⟩
  | txBuild =>
    obtain ⟨cmd, data, rfl, fits, rfl⟩ := formatH3_reads h
    obtain rfl := eq_of_beq listed
    exact ⟨rfl, (payloadFits_iff data).2 fits, fun _ => rfl⟩
  | rxRead =>
    obtain ⟨a, rfl, rfl⟩ := formatH4_reads h
    obtain rfl := eq_of_beq listed
    exact ⟨rfl, rfl, fun _ => rfl⟩
  | illegal row =>
    cases h
    obtain ⟨illegal, port, _⟩ := illegalInstr_kind op row
    exact ⟨port, listed, fun legal => absurd (illegal.symm.trans legal) (by decide)⟩

/-- R106: what each row of the event input reads. -/
theorem eventOperands_standsFor {code : Byte} {l rest : List Byte} {row : EventRow} {i : Instr}
    (listed : eventRow code = some row) (h : eventOperands l row = .ok (i, rest)) :
    StandsFor .event (code :: l) rest i := by
  obtain rfl := code_of_eventRow listed
  cases row with
  | rxByte =>
    obtain ⟨a, rfl, rfl⟩ := formatH1_reads h
    exact ⟨rfl, rfl, fun _ => rfl⟩
  | rxError =>
    obtain ⟨a, rfl, rfl⟩ := formatH4_reads h
    exact ⟨rfl, rfl, fun _ => rfl⟩
  | rxEof | tick | reset =>
    cases h
    exact ⟨rfl, rfl, fun _ => rfl⟩

/-- R104 to R107: the same for the decoder, whose answer is of the row of the first byte. -/
theorem decode_standsFor (p : Port) (bytes rest : List Byte) (i : Instr) (h : decode p bytes = .ok (i, rest)) :
    StandsFor p bytes rest i := by
  cases bytes with
  | nil => cases p <;> cases h
  | cons b l =>
    cases p with
    | host =>
      obtain ⟨row, read⟩ := Option.isSome_iff_exists.1 (hostRow_isSome b)
      rw [decode_host_of_row l read] at h
      exact hostOperands_standsFor (lists_of_hostRow read) h
    | event =>
      simp only [decode, decodeEvent] at h
      split at h
      · next row listed => exact eventOperands_standsFor listed h
      · cases h

end Sys2Proof

namespace Sys2Proof.Proofs

open Machine Statements

/-- Settles O28: an illegal opcode is read back alone, every other input before the bytes that follow it. -/
theorem decodeReadsBackEveryEncoding : Obligations.DecodeReadsBackEveryEncoding := by
  intro i rest wf
  cases illegal : i.illegal with
  | true => exact decode_encode_of_illegal i rest illegal wf
  | false => exact decode_encode_of_legal i rest illegal wf

/-- Settles O29, row by row: the formats read exactly the bytes the encoder writes. -/
theorem decodeReadsOnlyEncodings : Obligations.DecodeReadsOnlyEncodings := by
  intro p bytes rest i h
  obtain ⟨port, wf, encoded⟩ := decode_standsFor p bytes rest i h
  exact ⟨port, wf, decode_core p bytes rest i h, encoded⟩

/-- Settles O31: a code outside R106's table has no row. -/
theorem codesOfNoEventAreRefused : Obligations.CodesOfNoEventAreRefused := by
  intro code rest unlisted
  simp only [decode, decodeEvent, eventRow_eq_none unlisted]

/-- Settles O32: each word decodes by evaluation. -/
theorem listedWordsDecode : Obligations.ListedWordsDecode := ⟨rfl, rfl, rfl, rfl, rfl, rfl⟩

end Sys2Proof.Proofs

namespace Sys2Proof.Machine

open Statements

/-! ### A build of a request (R173) -/

/-- R173: while a reception is in progress a build is refused. -/
theorem buildRequest_of_busy (cmd : Byte) (data : List Byte) (s : State) (busy : s.busy = true) :
    buildRequest cmd data s = refusedWith .busy s := by
  rw [buildRequest, if_pos busy]; rfl

/-- R173: then a payload that does not fit. -/
theorem buildRequest_of_tooMuch (cmd : Byte) (data : List Byte) (s : State) (idle : s.busy = false)
    (long : s.params.maxFrameLen - 17 < data.length) : buildRequest cmd data s = refusedWith .tooMuchData s := by
  rw [buildRequest, if_neg (by simp [idle]), if_pos long]; rfl

/-- R173: then a missing slave address. -/
theorem buildRequest_of_noSlave (cmd : Byte) (data : List Byte) (s : State) (idle : s.busy = false)
    (fits : data.length ≤ s.params.maxFrameLen - 17) (unset : s.slaveValid = false) :
    buildRequest cmd data s = refusedWith .invalidArg s := by
  rw [buildRequest, if_neg (by simp [idle]), if_neg (Nat.not_lt.2 fits), if_pos unset]; rfl

/-- R173, R174: under R173's conditions the request is built. -/
theorem buildRequest_of_mayBuild (cmd : Byte) (data : List Byte) (s : State) (allowed : mayBuild data s) :
    buildRequest cmd data s = built cmd data s := by
  obtain ⟨idle, fits, valid⟩ := allowed
  rw [buildRequest, if_neg (by simp [idle]), if_neg (Nat.not_lt.2 fits), if_neg (by simp [valid])]
  exact afterBuild_eq_built cmd data s

/-- R173 for any input whose meaning is `buildRequest`. -/
theorem buildsByR173_of_exec (i : Instr) (cmd : Byte) (data : List Byte) (s : State)
    (meaning : exec i s = .next (buildRequest cmd data s)) : buildsByR173 i cmd data s := by
  unfold buildsByR173
  rw [meaning]
  exact ⟨fun busy => congrArg _ (buildRequest_of_busy cmd data s busy),
    fun idle long => congrArg _ (buildRequest_of_tooMuch cmd data s idle long),
    fun idle fits unset => congrArg _ (buildRequest_of_noSlave cmd data s idle fits unset),
    fun allowed => congrArg _ (buildRequest_of_mayBuild cmd data s allowed)⟩

/-! ### The frame layout (R90 to R94) -/

section Frame

variable (preamble : Vector Byte 8) (dst src : Byte) (seq : Word16) (cmd : Byte) (data : List Byte)

/-- R91: header and payload take 15 + n bytes. -/
theorem frameBytes_length : (frameBytes preamble dst src seq cmd data).length = 15 + data.length := by
  simp [frameBytes]; omega

/-- R91: the preamble stands at the offsets 0 to 7. -/
theorem frameBytes_getElem?_preamble (k : Nat) (hk : k < 8) :
    (frameBytes preamble dst src seq cmd data)[k]? = preamble.toList[k]? := by
  simp only [frameBytes, List.append_assoc]
  exact List.getElem?_append_left (by simpa using hk)

/-- R91: from offset 8 on stand the other header fields, each multi-byte one big-endian (R72), and the payload. -/
theorem frameBytes_getElem?_fields (k : Nat) :
    (frameBytes preamble dst src seq cmd data)[8 + k]? =
      (dst :: src :: hi8 seq :: lo8 seq :: cmd :: hi8 (BitVec.ofNat 16 data.length) ::
        lo8 (BitVec.ofNat 16 data.length) :: data)[k]? := by
  simp only [frameBytes, List.append_assoc]
  rw [List.getElem?_append_right (by simp)]
  simp [be16Bytes, lengthBytes]

/-- R91: the payload stands at offset 15. -/
theorem frameBytes_getElem?_payload (k : Nat) :
    (frameBytes preamble dst src seq cmd data)[15 + k]? = data[k]? := by
  have field := frameBytes_getElem?_fields preamble dst src seq cmd data (7 + k)
  rwa [← Nat.add_assoc, Nat.add_comm 7 k] at field

/-- R91, R172: a frame written out field by field is the finalized body. -/
theorem wireFrame_eq_finalize :
    wireFrame preamble dst src seq cmd data = finalize (frameBytes preamble dst src seq cmd data) := by
  simp [wireFrame, finalize, finalizeWith, crcWireOrder, trailer, frameBytes, be16Bytes, lengthBytes]

end Frame

/-- R93, R172: the trailer is the body's checksum, low byte first (R73). -/
theorem finalize_eq (body : List Byte) : finalize body = body ++ [lo8 (crc16 body), hi8 (crc16 body)] := rfl

/-- R94: the trailer takes two bytes. -/
theorem finalize_length (body : List Byte) : (finalize body).length = body.length + 2 := by simp [finalize_eq]

/-- R172: before the trailer stands the body. -/
theorem finalize_getElem? (body : List Byte) (k : Nat) (hk : k < body.length) : (finalize body)[k]? = body[k]? := by
  rw [finalize_eq, List.getElem?_append_left hk]

/-- R93: the two bytes of the trailer, of a body of `n` bytes, are the checksum of the bytes before them. -/
theorem finalize_getElem?_trailer (body : List Byte) (n : Nat) (hn : body.length = n) :
    (finalize body)[n]? = some (lo8 (crc16 ((finalize body).take n)))
      ∧ (finalize body)[n + 1]? = some (hi8 (crc16 ((finalize body).take n))) := by
  subst hn
  simp [finalize_eq]

/-! ### Confirmation (R237) -/

/-- R237: what `RX_CONFIRM` answers, by the conditions it tests. -/
theorem execRxConfirm_cases (s t : State) (h : execRxConfirm s = .next t) :
    ((s.rxState ≠ .done ∨ s.reqValid = false) ∧ t = raise .notReady s) ∨
    (s.rxState = .done ∧ s.reqValid = true ∧ ∃ f, receivedHeader s = some f
      ∧ t = confirmResult s (classify s.request f s.rxLen.toNat)) := by
  unfold execRxConfirm at h
  split_ifs at h with notDone noRequest
  · cases h; exact .inl ⟨.inl notDone, rfl⟩
  · cases h; exact .inl ⟨.inr noRequest, rfl⟩
  · split at h <;> cases h
    next f header => exact .inr ⟨not_not.1 notDone, by simpa using noRequest, f, header, rfl⟩

/-- R237: a classification in `DONE` with a request built. -/
theorem execRxConfirm_classified (s : State) (f : FrameHeader) (done : s.rxState = .done) (request : s.reqValid = true)
    (header : receivedHeader s = some f) :
    execRxConfirm s = .next (confirmResult s (classify s.request f s.rxLen.toNat)) := by
  simp only [execRxConfirm, done, request, header, ne_eq, not_true_eq_false, if_false, Bool.true_eq_false]

/-- R237: a confirmation outside `DONE` or with no request built. -/
theorem execRxConfirm_notReady (s : State) (h : s.rxState ≠ .done ∨ s.reqValid = false) :
    execRxConfirm s = .next (raise .notReady s) := by
  unfold execRxConfirm
  rcases h with notDone | noRequest
  · rw [if_pos notDone]
  · rw [if_pos noRequest, ite_self]

/-! ### Reception under another preamble (R102) -/

/-- The machine built with another preamble. -/
def State.withPreamble (p : Vector Byte 8) (s : State) : State :=
  { s with params := { s.params with preamble := p } }

section Preamble

variable (p : Vector Byte 8) {s t : State}

/-- R196, R198: a byte is stored the same. -/
theorem storeByte_withPreamble {b : Byte} (h : storeByte b s = .ok t) :
    storeByte b (s.withPreamble p) = .ok (t.withPreamble p) := by
  obtain ⟨room, left, rfl⟩ := (storeByte_ok b s t).1 h
  exact (storeByte_ok b _ _).2 ⟨room, left, rfl⟩

/-- R197: a header completes the same. -/
theorem headerComplete_withPreamble (h : headerComplete s = .ok t) :
    headerComplete (s.withPreamble p) = .ok (t.withPreamble p) := by
  refine (headerComplete_ok _ _).2 ?_
  obtain ⟨n, declared, ⟨long, rfl⟩ | ⟨fits, rfl⟩⟩ := (headerComplete_ok s t).1 h
  · exact ⟨n, declared, .inl ⟨long, rfl⟩⟩
  · exact ⟨n, declared, .inr ⟨fits, rfl⟩⟩

/-- R198, R199: a frame completes the same: the checksum is over the received bytes. -/
theorem frameComplete_withPreamble (h : frameComplete s = .ok t) :
    frameComplete (s.withPreamble p) = .ok (t.withPreamble p) := by
  obtain ⟨f, read, rfl⟩ := (frameComplete_ok s t).1 h
  exact (frameComplete_ok _ _).2 ⟨f, read, rfl⟩

/-- R196: a byte in `HEADER`. -/
theorem headerByte_withPreamble {b : Byte} (h : headerByte b s = .ok t) :
    headerByte b (s.withPreamble p) = .ok (t.withPreamble p) := by
  refine (headerByte_ok b _ _).2 ?_
  obtain ⟨u, stored, ⟨last, complete⟩ | ⟨more, rfl⟩⟩ := (headerByte_ok b s t).1 h
  · exact ⟨_, storeByte_withPreamble p stored, .inl ⟨last, headerComplete_withPreamble p complete⟩⟩
  · exact ⟨_, storeByte_withPreamble p stored, .inr ⟨more, rfl⟩⟩

/-- R198: a byte in `PAYLOAD`. -/
theorem payloadByte_withPreamble {b : Byte} (h : payloadByte b s = .ok t) :
    payloadByte b (s.withPreamble p) = .ok (t.withPreamble p) := by
  refine (payloadByte_ok b _ _).2 ?_
  obtain ⟨u, stored, ⟨last, complete⟩ | ⟨more, rfl⟩⟩ := (payloadByte_ok b s t).1 h
  · exact ⟨_, storeByte_withPreamble p stored, .inl ⟨last, frameComplete_withPreamble p complete⟩⟩
  · exact ⟨_, storeByte_withPreamble p stored, .inr ⟨more, rfl⟩⟩

/-- R190: a received byte. -/
theorem execRxByte_withPreamble {b : Byte} (h : execRxByte b s = .next t) :
    execRxByte b (s.withPreamble p) = .next (t.withPreamble p) := by
  rcases execRxByte_next b s t h with ⟨idle, rfl⟩ | ⟨header, u, taken, rfl⟩ | ⟨payload, u, taken, rfl⟩
  · exact execRxByte_idle b (t.withPreamble p) idle
  · exact execRxByte_header b (s.withPreamble p) _ header (headerByte_withPreamble p taken)
  · exact execRxByte_payload b (s.withPreamble p) _ payload (payloadByte_withPreamble p taken)

/-- R200: one tick of a wait counts the same. -/
theorem countTick_withPreamble (h : countTick s = .ok t) : countTick (s.withPreamble p) = .ok (t.withPreamble p) := by
  refine (countTick_ok _ _).2 ?_
  rcases (countTick_ok s t).1 h with ⟨last, rfl⟩ | ⟨notZero, notLast, rfl⟩
  · exact .inl ⟨last, rfl⟩
  · exact .inr ⟨notZero, notLast, rfl⟩

/-- R200: a tick. -/
theorem execTick_withPreamble (h : execTick s = .next t) :
    execTick (s.withPreamble p) = .next (t.withPreamble p) := by
  rcases execTick_next s t h with ⟨idle, rfl⟩ | ⟨busy, u, counted, rfl⟩
  · exact execTick_idle (s.withPreamble p) idle
  · exact execTick_busy (s.withPreamble p) _ busy (countTick_withPreamble p counted)

/-- R230 to R237: a confirmation. -/
theorem execRxConfirm_withPreamble (h : execRxConfirm s = .next t) :
    execRxConfirm (s.withPreamble p) = .next (t.withPreamble p) := by
  rcases execRxConfirm_cases s t h with ⟨notReady, rfl⟩ | ⟨done, request, f, header, rfl⟩
  · exact execRxConfirm_notReady (s.withPreamble p) notReady
  · rw [execRxConfirm_classified (s.withPreamble p) f done request header]
    show Host.Outcome.next (confirmResult _ (classify s.request f s.rxLen.toNat)) = _
    cases classify s.request f s.rxLen.toNat <;> rfl

end Preamble

end Sys2Proof.Machine

namespace Sys2Proof.Proofs

open Machine Statements

/-- Settles O24: the fields before the trailer are the body's, the trailer is over the bytes before it. -/
theorem frameFieldsStandAtTheirOffsets : Obligations.FrameFieldsStandAtTheirOffsets := by
  intro cmd data s f
  let body := buildFrameBody s cmd data
  have bodyLength : body.length = 15 + data.length := frameBytes_length _ _ _ _ _ _
  have inBody : ∀ k, k < 15 + data.length → f[k]? = body[k]? :=
    fun k hk => finalize_getElem? body k (bodyLength ▸ hk)
  have field := frameBytes_getElem?_fields s.params.preamble s.slave s.ownAddr s.seq cmd data
  obtain ⟨low, high⟩ := finalize_getElem?_trailer body (15 + data.length) bodyLength
  refine ⟨?_, fun k hk => ?_, ?_, ?_, ?_, ?_, ?_, ?_, ?_, fun k hk => ?_, low, ?_⟩
  · exact (finalize_length body).trans (by omega)
  · exact (inBody k (by omega)).trans (frameBytes_getElem?_preamble _ _ _ _ _ _ k hk)
  · exact (inBody 8 (by omega)).trans (field 0)
  · exact (inBody 9 (by omega)).trans (field 1)
  · exact (inBody 10 (by omega)).trans (field 2)
  · exact (inBody 11 (by omega)).trans (field 3)
  · exact (inBody 12 (by omega)).trans (field 4)
  · exact (inBody 13 (by omega)).trans (field 5)
  · exact (inBody 14 (by omega)).trans (field 6)
  · exact (inBody (15 + k) (by omega)).trans (frameBytes_getElem?_payload _ _ _ _ _ _ k)
  · rw [show 16 + data.length = 15 + data.length + 1 by omega]; exact high

/-- Settles O41: none of the three operations reads the preamble, and none writes it. -/
theorem receptionIgnoresThePreamble : Obligations.ReceptionIgnoresThePreamble := by
  rintro i p s t (reception | rfl) h
  · cases i <;> simp only [byteOrTick, reduceCtorEq] at reception
    case rxByte b => exact execRxByte_withPreamble p h
    case tick => exact execTick_withPreamble p h
  · exact execRxConfirm_withPreamble p h

/-- Settles O9: each of the seven names runs as the build of a request with its command byte. -/
theorem commandCodesBuildTheirRequest : Obligations.CommandCodesBuildTheirRequest := fun code data s =>
  ⟨buildsByR173_of_exec _ _ data s rfl, buildsByR173_of_exec _ _ data s rfl, buildsByR173_of_exec _ _ data s rfl,
    buildsByR173_of_exec _ _ data s rfl, buildsByR173_of_exec _ _ data s rfl, buildsByR173_of_exec _ code data s rfl,
    buildsByR173_of_exec _ code data s rfl⟩

end Sys2Proof.Proofs

namespace Sys2Proof.Machine

open Statements

/-! ### The bytes in the receive buffer (R42, R51) -/

/-- R51: the buffer holds exactly the bytes `l`, from offset 0 on. -/
structure State.Holds (s : State) (l : List Byte) : Prop where
  offsets : s.rxBuf.map Prod.fst = List.range l.length
  bytes : s.rxBuf.map Prod.snd = l
  length : s.rxLen.toNat = l.length

/-- R42, R43: what writes neither the buffer nor its length leaves the bytes held. -/
theorem State.Holds.congr {s u : State} {l : List Byte} (hs : s.Holds l) (buf : u.rxBuf = s.rxBuf)
    (len : u.rxLen = s.rxLen) : u.Holds l :=
  ⟨buf ▸ hs.offsets, buf ▸ hs.bytes, len ▸ hs.length⟩

/-- R42: an offset reads as the list has it. -/
theorem State.Holds.read {s : State} {l : List Byte} (hs : s.Holds l) (a : Nat) : Memory.read s.rxBuf a = l[a]? := by
  rw [read_of_offsets _ _ hs.offsets, hs.bytes]

/-- R199: the whole of the received bytes. -/
theorem State.Holds.readRange {s : State} {l : List Byte} (hs : s.Holds l) :
    Memory.readRange s.rxBuf 0 s.rxLen.toNat = some l := by
  rw [hs.length, filled_readRange _ _ hs.offsets, hs.bytes]

/-- R196, R198: a stored byte is held after those before it. -/
theorem State.Holds.store {s u : State} {l : List Byte} (hs : s.Holds l) (b : Byte) (legal : s.params.legal = true)
    (stored : storeByte b s = .ok u) : u.Holds (l ++ [b]) := by
  obtain ⟨longer, _⟩ := storeByte_counts b s u legal stored
  obtain ⟨_, _, rfl⟩ := (storeByte_ok b s u).1 stored
  have written : Memory.write s.rxBuf s.rxLen.toNat b = s.rxBuf ++ [(l.length, b)] := by
    rw [hs.length]; exact write_next _ _ _ hs.offsets
  refine ⟨?_, ?_, ?_⟩
  · simp [written, hs.offsets, List.range_succ]
  · simp [written, hs.bytes]
  · rw [longer, hs.length, List.length_append, List.length_singleton]

/-! ### The reception of a whole frame (R195 to R199, R205) -/

/-- R94, R108: the header of the frame `f` declares `n` payload bytes, and `f` has the length that gives. -/
structure Declares (f : List Byte) (n : Word16) : Prop where
  high : f[13]? = some (hi8 n)
  low : f[14]? = some (lo8 n)
  length : f.length = 17 + n.toNat

/-- R197: past the header the declared length is read from the buffer. -/
theorem Declares.dataLength {f : List Byte} {n : Word16} (hf : Declares f n) {s : State} {k : Nat} (header : 15 ≤ k)
    (hs : s.Holds (f.take k)) : dataLength s.rxBuf = some n := by
  refine (dataLength_some _ _).2 ⟨hi8 n, lo8 n, ?_, ?_, (be16_hi8_lo8 n).symm⟩ <;>
    rw [hs.read, List.getElem?_take_of_lt (by omega)]
  exacts [hf.high, hf.low]

/-- R51: the reception of the frame `f` after its first `k` bytes. -/
structure State.Midway (s : State) (f : List Byte) (k : Nat) : Prop where
  holds : s.Holds (f.take k)
  state : s.rxState = if k < 15 then .header else .payload
  remaining : s.rxRemaining.toNat = if k < 15 then 15 - k else f.length - k
  legal : s.params.legal = true
  room : f.length ≤ s.params.maxFrameLen

/-- R196, R198: the next byte of the frame is stored. -/
theorem State.Midway.store {s : State} {f : List Byte} {k : Nat} (hs : s.Midway f k) (hk : k < f.length) :
    ∃ u, storeByte f[k] s = .ok u ∧ u.Holds (f.take (k + 1)) ∧ u.rxRemaining.toNat + 1 = s.rxRemaining.toNat
      ∧ u.rxState = s.rxState ∧ u.params = s.params := by
  have remaining := hs.remaining
  have length : s.rxLen.toNat = k := by rw [hs.holds.length, List.length_take_of_le hk.le]
  have left : s.rxRemaining ≠ 0 := by
    rw [ne_eq, eq_zero32]
    split_ifs at remaining <;> omega
  have room := hs.room
  have stored := (storeByte_ok f[k] s _).2 ⟨by omega, left, rfl⟩
  obtain ⟨_, fewer⟩ := storeByte_counts _ _ _ hs.legal stored
  refine ⟨_, stored, ?_, fewer, rfl, rfl⟩
  rw [← List.take_append_getElem hk]
  exact hs.holds.store _ hs.legal stored

/-- R196: a byte of the header but its last. -/
theorem State.Midway.rxByte_header {s : State} {f : List Byte} {k : Nat} (hs : s.Midway f k) (hk : k < f.length)
    (header : k + 1 < 15) : ∃ t, exec (.rxByte f[k]) s = .next t ∧ t.Midway f (k + 1) := by
  obtain ⟨u, stored, holds, fewer, sameState, sameParams⟩ := hs.store hk
  have remaining := hs.remaining
  have state := hs.state
  rw [if_pos (by omega)] at remaining state
  have more : u.rxRemaining ≠ 0 := by rw [ne_eq, eq_zero32]; omega
  refine ⟨silent u, execRxByte_header _ _ _ state ((headerByte_ok _ _ _).2 ⟨u, stored, .inr ⟨more, rfl⟩⟩),
    holds.congr rfl rfl, ?_, ?_, sameParams ▸ hs.legal, sameParams ▸ hs.room⟩
  · rw [if_pos header]; exact sameState.trans state
  · rw [if_pos header, silent_rxRemaining]; omega

/-- R197: the last byte of the header, after which the declared payload and the trailer are to come. -/
theorem State.Midway.rxByte_header_last {s : State} {f : List Byte} {n : Word16} (hs : s.Midway f 14)
    (hf : Declares f n) (hk : 14 < f.length) : ∃ t, exec (.rxByte f[14]) s = .next t ∧ t.Midway f 15 := by
  obtain ⟨u, stored, holds, fewer, -, sameParams⟩ := hs.store hk
  have legal : u.params.legal = true := sameParams ▸ hs.legal
  have room : f.length ≤ u.params.maxFrameLen := sameParams ▸ hs.room
  have length := hf.length
  have noneLeft : u.rxRemaining = 0 := by rw [eq_zero32]; exact Nat.succ.inj (fewer.trans hs.remaining)
  have complete := (headerComplete_ok u _).2 ⟨n, hf.dataLength (Nat.le_refl 15) holds, .inr ⟨by omega, rfl⟩⟩
  refine ⟨_, execRxByte_header _ _ _ hs.state ((headerByte_ok _ _ _).2 ⟨u, stored, .inl ⟨noneLeft, complete⟩⟩),
    holds.congr rfl rfl, rfl, ?_, legal, room⟩
  have := n.isLt
  rw [silent_rxRemaining, rearm_rxRemaining, BitVec.toNat_ofNat, if_neg (by decide)]
  omega

/-- R198: a byte of the payload or the trailer, but the last. -/
theorem State.Midway.rxByte_payload {s : State} {f : List Byte} {k : Nat} (hs : s.Midway f k) (payload : 15 ≤ k)
    (hk : k + 1 < f.length) : ∃ t, exec (.rxByte f[k]) s = .next t ∧ t.Midway f (k + 1) := by
  obtain ⟨u, stored, holds, fewer, sameState, sameParams⟩ := hs.store (k := k) (by omega)
  have remaining := hs.remaining
  have state := hs.state
  rw [if_neg (by omega)] at remaining state
  have more : u.rxRemaining ≠ 0 := by rw [ne_eq, eq_zero32]; omega
  refine ⟨_, execRxByte_payload _ _ _ state ((payloadByte_ok _ _ _).2 ⟨u, stored, .inr ⟨more, rfl⟩⟩),
    holds.congr rfl rfl, ?_, ?_, sameParams ▸ hs.legal, sameParams ▸ hs.room⟩
  · rw [if_neg (by omega)]; exact sameState.trans state
  · rw [if_neg (by omega), silent_rxRemaining, rearm_rxRemaining]; omega

/-- R196 to R198: every byte but the last takes the reception one byte further. -/
theorem State.Midway.rxByte {s : State} {f : List Byte} {n : Word16} {k : Nat} (hs : s.Midway f k) (hf : Declares f n)
    (hk : k + 1 < f.length) : ∃ t, exec (.rxByte f[k]) s = .next t ∧ t.Midway f (k + 1) := by
  rcases Nat.lt_trichotomy k 14 with header | rfl | payload
  · exact hs.rxByte_header (by omega) (by omega)
  · exact hs.rxByte_header_last hf (by omega)
  · exact hs.rxByte_payload payload hk

/-- R198, R199: with its last byte an intact frame is received. -/
theorem State.Midway.rxByte_last {s : State} {f : List Byte} {k : Nat} (hs : s.Midway f k) (header : 15 ≤ k)
    (hk : k + 1 = f.length) (intact : integrityOk f = true) :
    ∃ t, exec (.rxByte f[k]) s = .next t ∧ t.Holds f ∧ t.rxState = .done := by
  obtain ⟨u, stored, holds, fewer, -, -⟩ := hs.store (k := k) (by omega)
  have remaining := hs.remaining
  have state := hs.state
  rw [if_neg (by omega)] at remaining state
  rw [List.take_of_length_le (by omega)] at holds
  have done : u.rxRemaining = 0 := by rw [eq_zero32]; omega
  have complete := (frameComplete_ok u _).2 ⟨f, holds.readRange, rfl⟩
  rw [if_pos intact] at complete
  exact ⟨_, execRxByte_payload _ _ _ state ((payloadByte_ok _ _ _).2 ⟨u, stored, .inl ⟨done, complete⟩⟩),
    holds.congr rfl rfl, rfl⟩

/-- R10: the inputs `l` and then one more. -/
theorem run_snoc (l : List Instr) (i : Instr) (s t u : State) (hl : run l s = some t) (hi : exec i t = .next u) :
    run (l ++ [i]) s = some u := by
  rw [run_append, hl]
  exact run_cons i [] t u hi

/-- R196 to R198: a proper prefix of a frame, received byte by byte. -/
theorem State.Midway.run_take {s : State} {f : List Byte} {n : Word16} (hs : s.Midway f 0) (hf : Declares f n) (k : Nat)
    (hk : k < f.length) : ∃ t, run ((f.take k).map Instr.rxByte) s = some t ∧ t.Midway f k := by
  induction k with
  | zero => exact ⟨s, rfl, hs⟩
  | succ k ih =>
    obtain ⟨t, ran, midway⟩ := ih (by omega)
    obtain ⟨u, byte, further⟩ := midway.rxByte hf hk
    refine ⟨u, ?_, further⟩
    rw [← List.take_append_getElem (by omega : k < f.length), List.map_append]
    exact run_snoc _ _ _ _ _ ran byte

/-- R195 to R199: an intact frame of the length it declares, received byte by byte, ends the reception in `DONE`. -/
theorem State.Midway.run_frame {s : State} {f : List Byte} {n : Word16} (hs : s.Midway f 0) (hf : Declares f n)
    (intact : integrityOk f = true) : ∃ t, run (f.map Instr.rxByte) s = some t ∧ t.Holds f ∧ t.rxState = .done := by
  have length := hf.length
  have lastLt : f.length - 1 < f.length := by omega
  obtain ⟨t, ran, midway⟩ := hs.run_take hf (f.length - 1) lastLt
  obtain ⟨u, byte, ended⟩ := midway.rxByte_last (by omega) (by omega) intact
  have wholeFrame : f.take (f.length - 1) ++ [f[f.length - 1]] = f := by
    rw [List.take_append_getElem, List.take_of_length_le (by omega)]
  have inputs := (congrArg (List.map Instr.rxByte) wholeFrame).symm.trans List.map_append
  rw [inputs]
  exact ⟨u, run_snoc _ _ _ _ _ ran byte, ended⟩

/-- R190: received bytes write the receive controller's fields alone. -/
theorem run_rxBytes_withReceptionOf (l : List Byte) (s t : State) (h : run (l.map Instr.rxByte) s = some t) :
    ∃ u, t = s.withReceptionOf u := by
  induction l generalizing s with
  | nil => cases h; exact ⟨t, rfl⟩
  | cons b l ih =>
    simp only [List.map_cons, run] at h
    split at h
    · next v byte =>
      obtain ⟨u, rfl⟩ := exec_event_withReceptionOf _ s v rfl (by simp) byte
      obtain ⟨w, rfl⟩ := ih _ h
      exact ⟨w, rfl⟩
    · cases h
    · cases h

/-! ### A frame on the wire, received (R91, R108, R199) -/

section WireFrame

variable (pre : Vector Byte 8) (dst src : Byte) (seq : Word16) (cmd : Byte) (data : List Byte)

/-- R94: a frame has 17 + n bytes. -/
theorem wireFrame_length : (wireFrame pre dst src seq cmd data).length = 17 + data.length := by
  rw [wireFrame_eq_finalize, finalize_length, frameBytes_length]; omega

/-- R91: from offset 8 on stand the header fields and the payload. -/
theorem wireFrame_getElem?_fields (k : Nat) (hk : k < 7 + data.length) :
    (wireFrame pre dst src seq cmd data)[8 + k]? =
      (dst :: src :: hi8 seq :: lo8 seq :: cmd :: hi8 (BitVec.ofNat 16 data.length) ::
        lo8 (BitVec.ofNat 16 data.length) :: data)[k]? := by
  rw [wireFrame_eq_finalize, finalize_getElem? _ _ (by rw [frameBytes_length]; omega), frameBytes_getElem?_fields]

/-- R199: a frame as it is sent is intact. -/
theorem wireFrame_integrityOk : integrityOk (wireFrame pre dst src seq cmd data) = true := by
  rw [wireFrame_eq_finalize, finalize_eq]
  exact (integrityOk_append _ _ _).2 ⟨rfl, rfl⟩

/-- R94: a frame declares its payload's length. -/
theorem wireFrame_declares (fits : data.length ≤ 65535) :
    Declares (wireFrame pre dst src seq cmd data) (BitVec.ofNat 16 data.length) := by
  refine ⟨wireFrame_getElem?_fields pre dst src seq cmd data 5 (by omega),
    wireFrame_getElem?_fields pre dst src seq cmd data 6 (by omega), ?_⟩
  rw [wireFrame_length, BitVec.toNat_ofNat]
  omega

/-- R108: the header read from a buffer that holds a frame is the frame's. -/
theorem receivedHeader_of_holds {s : State} (hs : s.Holds (wireFrame pre dst src seq cmd data)) :
    receivedHeader s = some ⟨dst, src, seq, cmd, BitVec.ofNat 16 data.length⟩ := by
  have length := hs.length
  rw [wireFrame_length] at length
  have field := fun k hk => (hs.read (8 + k)).trans (wireFrame_getElem?_fields pre dst src seq cmd data k hk)
  have header := receivedHeader_some s (by omega) _ _ _ _ _ _ _ (field 0 (by omega)) (field 1 (by omega))
    (field 2 (by omega)) (field 3 (by omega)) (field 4 (by omega)) (field 5 (by omega)) (field 6 (by omega))
  rwa [be16_hi8_lo8, be16_hi8_lo8] at header

/-- R91: the payload is read at offset 15 of such a buffer. -/
theorem read_payload_of_holds {s : State} (hs : s.Holds (wireFrame pre dst src seq cmd data)) (k : Nat)
    (hk : k < data.length) : Memory.read s.rxBuf (15 + k) = data[k]? := by
  have field := (hs.read (8 + (7 + k))).trans (wireFrame_getElem?_fields pre dst src seq cmd data (7 + k) (by omega))
  rwa [← Nat.add_assoc, Nat.add_comm 7 k] at field

end WireFrame

/-! ### A request and its response (R101, R173, R195, R237) -/

/-- R173, R195: after a build and the start of a reception every frame that fits is yet to come. -/
theorem startReception_midway (s : State) (f : List Byte) (legal : s.params.legal = true)
    (room : f.length ≤ s.params.maxFrameLen) : (answer (startReception s)).Midway f 0 :=
  ⟨⟨rfl, rfl, rfl⟩, rfl, rfl, legal, room⟩

/-- R195: a reception starts where none is going on. -/
theorem execRxStart_idle (s : State) (idle : s.busy = false) :
    execRxStart s = .next (answer (startReception s)) := by
  simp [execRxStart, idle]

/-- R173, R195 to R199, R237: a request built, a reception started, and the bytes of a frame that fits received,
with the roles of the request's addresses reversed: the confirmation is the classification of the frame's header against the
request. -/
theorem run_exchange (cmd : Byte) (data : List Byte) (s : State) (legal : s.params.legal = true)
    (allowed : mayBuild data s) (pre : Vector Byte 8) (seq : Word16) (c : Byte) (reply : List Byte)
    (fits : reply.length ≤ s.params.maxFrameLen - 17) :
    ∃ u, run ([.txBuild cmd data, .rxStart] ++ (wireFrame pre s.ownAddr s.slave seq c reply).map Instr.rxByte
          ++ [.rxConfirm]) s
        = some (confirmResult u (classify ⟨s.slave, s.ownAddr, s.seq, cmd⟩
            ⟨s.ownAddr, s.slave, seq, c, BitVec.ofNat 16 reply.length⟩ (17 + reply.length)))
      ∧ u.rxState = .done ∧ u.Holds (wireFrame pre s.ownAddr s.slave seq c reply) := by
  obtain ⟨⟨frameMin, frameMax⟩, _⟩ := (params_legal_iff s.params).1 legal
  have length := wireFrame_length pre s.ownAddr s.slave seq c reply
  have build : exec (.txBuild cmd data) s = .next (built cmd data s) :=
    congrArg _ (buildRequest_of_mayBuild cmd data s allowed)
  have start : exec .rxStart (built cmd data s) = .next (answer (startReception (built cmd data s))) :=
    execRxStart_idle (built cmd data s) allowed.1
  have midway := startReception_midway (built cmd data s) (wireFrame pre s.ownAddr s.slave seq c reply) legal
    (by rw [length]; show _ ≤ s.params.maxFrameLen; omega)
  obtain ⟨u, received, holds, done⟩ := midway.run_frame (wireFrame_declares _ _ _ _ _ reply (by omega))
    (wireFrame_integrityOk _ _ _ _ _ _)
  have request : u.reqValid = true ∧ u.request = ⟨s.slave, s.ownAddr, s.seq, cmd⟩ := by
    obtain ⟨v, rfl⟩ := run_rxBytes_withReceptionOf _ _ _ received
    exact ⟨rfl, rfl⟩
  obtain ⟨valid, request⟩ := request
  have confirm := execRxConfirm_classified u _ done valid (receivedHeader_of_holds _ _ _ _ _ _ holds)
  rw [request, holds.length, length] at confirm
  refine ⟨u, run_snoc _ _ _ u _ ?_ confirm, done, holds⟩
  rw [List.cons_append, run_cons _ _ _ _ build, List.cons_append, run_cons _ _ _ _ start]
  exact received

/-- R231, R235, R236: the response with the request's sequence number and command is in order. -/
theorem classify_matching (req : Request) (n : Word16) (len : Nat) (low : req.cmd.toNat < 0x80)
    (length : req.cmd = 0x03 ∨ len = 17) :
    classify req ⟨req.src, req.dst, req.seq, req.cmd, n⟩ len = .ok (15, n) := by
  have notHigh : ¬ 128 ≤ req.cmd.toNat := by omega
  have lengthOk : computeResponseLength req.cmd = none ∨ computeResponseLength req.cmd = some len := by
    unfold computeResponseLength
    rcases length with version | rfl
    · exact .inl (if_pos version)
    · split_ifs <;> simp
  simp [classify, precheck, highBit, notHigh, ← or_iff_not_imp_left, lengthOk]

/-- R98: an exception's command byte has bit 7 set. -/
theorem highBit_exceptionOf (q : Byte) : highBit (exceptionOf q) = true := by
  have : 0x80 ≤ (exceptionOf q).toNat := by rw [BitVec.toNat_or]; exact Nat.right_le_or
  exact decide_eq_true this

/-- R98, R232: the response of 17 bytes whose command is the request's with bit 0x80 set is the negative acknowledge. -/
theorem classify_exception (req : Request) (seq n : Word16) :
    classify req ⟨req.src, req.dst, seq, exceptionOf req.cmd, n⟩ 17 = .error .excNack := by
  rw [classify, if_neg (by simp [precheck]), if_pos (highBit_exceptionOf _), if_pos ⟨rfl, rfl⟩]

end Sys2Proof.Machine

namespace Sys2Proof.Proofs

open Machine Statements

/-- Settles O52: the exchange confirms by the classification, and the response's header is in order. -/
theorem matchingResponseIsConfirmed : Obligations.MatchingResponseIsConfirmed := by
  intro cmd data reply pre s legal allowed low payload fits
  obtain ⟨u, ran, done, holds⟩ := run_exchange cmd data s legal allowed pre s.seq cmd reply fits
  have inOrder := classify_matching ⟨s.slave, s.ownAddr, s.seq, cmd⟩ (BitVec.ofNat 16 reply.length) (17 + reply.length)
    low (payload.imp_right fun none => by rw [none]; rfl)
  rw [inOrder] at ran
  obtain ⟨⟨_, frameMax⟩, _⟩ := (params_legal_iff s.params).1 legal
  have lengthField : (BitVec.ofNat 16 reply.length).toNat = reply.length := by rw [BitVec.toNat_ofNat]; omega
  refine ⟨_, ran, done, ?_, read_payload_of_holds _ _ _ _ _ _ (holds.congr rfl rfl)⟩
  show some (OpResult.mk .ok (.word (packLocation dataOff _))) = _
  rw [packLocation_eq, lengthField]

/-- Settles O53: the same exchange, with R98's command byte in the response. -/
theorem exceptionResponseIsANack : Obligations.ExceptionResponseIsANack := by
  intro cmd data seq pre s legal allowed
  obtain ⟨u, ran, done, _⟩ := run_exchange cmd data s legal allowed pre seq (cmd ||| 0x80) [] (Nat.zero_le _)
  have nack : classify ⟨s.slave, s.ownAddr, s.seq, cmd⟩
      ⟨s.ownAddr, s.slave, seq, cmd ||| 0x80, BitVec.ofNat 16 ([] : List Byte).length⟩ (17 + ([] : List Byte).length)
      = .error .excNack := classify_exception ⟨s.slave, s.ownAddr, s.seq, cmd⟩ seq _
  rw [nack] at ran
  exact ⟨_, ran, done, rfl⟩

end Sys2Proof.Proofs

/-! PROOFS. The statements on spec/40_config.md: the setters (R131 to R134), what a reception refuses (R130), the
reading operations (R77, R135) and the illegal opcodes (R136). -/

namespace Sys2Proof

open Machine

/-! ### The illegal opcodes (R105, R136) -/

/-- R105: the opcode bytes the table lists. -/
def listedOpcodes : List Byte := [0x01, 0x02, 0x03, 0x04, 0x05, 0x10, 0x11, 0x20, 0x30, 0x31, 0x32]

/-- R136: the row is one of illegal opcodes. -/
def HostRow.isIllegal : HostRow → Bool
  | .illegal _ => true
  | .setSlave | .setOwnAddr | .setRespTimeout | .setByteTimeout | .readReg | .crcInit | .crcUpdate | .txBuild | .rxStart
  | .rxRead | .rxConfirm => false

/-- The rows of illegal opcodes. -/
theorem HostRow.isIllegal_iff (row : HostRow) : row.isIllegal = true ↔ ∃ r, row = .illegal r := by
  cases row <;> simp [HostRow.isIllegal]

/-- R105, R136: the rows of illegal opcodes read exactly the bytes the table does not list. -/
theorem isIllegal_of_hostRow {op : Byte} {row : HostRow} (h : hostRow op = some row) :
    row.isIllegal = true ↔ op ∉ listedOpcodes := by
  have everyOpcode : ∀ op : Byte, (hostRow op).map HostRow.isIllegal = some (decide (op ∉ listedOpcodes)) := by
    decide +kernel
  have here := everyOpcode op
  rw [h, Option.map_some, Option.some.injEq] at here
  rw [here, decide_eq_true_iff]

/-- R136: what a row reads is an illegal input exactly where the row is one of illegal opcodes. -/
theorem illegal_of_hostOperands {op : Byte} {l rest : List Byte} {row : HostRow} {i : Instr}
    (h : hostOperands op l row = .ok (i, rest)) : i.illegal = row.isIllegal := by
  cases row with
  | setSlave | setOwnAddr | readReg | crcUpdate => obtain ⟨a, rfl, _⟩ := formatH1_reads h; rfl
  | setRespTimeout | setByteTimeout => obtain ⟨a, b, rfl, _⟩ := formatH2_reads h; rfl
  | crcInit | rxStart | rxConfirm => cases h; rfl
  | txBuild => obtain ⟨cmd, data, rfl, _⟩ := formatH3_reads h; rfl
  | rxRead => obtain ⟨k, rfl, _⟩ := formatH4_reads h; rfl
  | illegal row => cases h; exact (illegalInstr_kind op row).1

/-- R136: the input of an illegal opcode, whichever row reads it, is refused. -/
theorem exec_illegalInstr (op : Byte) (row : IllegalRow) (s : State) :
    exec (illegalInstr op row) s = .next (raise .illegalOp s) := by
  cases row <;> rfl

end Sys2Proof

namespace Sys2Proof.Machine

/-! ### The operations a reception refuses (R130 to R134, R195) -/

section Setters

variable (a : Byte) (sec usec : Word32) {s : State}

/-- R131 during a reception. -/
theorem execSetSlave_busy (busy : s.busy = true) : execSetSlave a s = .next (raise .busy s) := by
  rw [execSetSlave, if_pos busy]

/-- R131 while no reception is in progress. -/
theorem execSetSlave_idle (idle : s.busy = false) :
    execSetSlave a s = .next (answer { s with slave := a, slaveValid := true }) := by
  simp only [execSetSlave, idle, Bool.false_eq_true, if_false]

/-- R132 during a reception. -/
theorem execSetOwnAddr_busy (busy : s.busy = true) : execSetOwnAddr a s = .next (raise .busy s) := by
  rw [execSetOwnAddr, if_pos busy]

/-- R132 while no reception is in progress. -/
theorem execSetOwnAddr_idle (idle : s.busy = false) :
    execSetOwnAddr a s = .next (answer { s with ownAddr := a }) := by
  simp only [execSetOwnAddr, idle, Bool.false_eq_true, if_false]

/-- R133 during a reception. -/
theorem execSetRespTimeout_busy (busy : s.busy = true) : execSetRespTimeout sec usec s = .next (raise .busy s) := by
  rw [execSetRespTimeout, if_pos busy]

/-- R133 while no reception is in progress: the microseconds are checked first, then the zero pair. -/
theorem execSetRespTimeout_idle (idle : s.busy = false) :
    execSetRespTimeout sec usec s = .next
      (if 1000000 ≤ usec.toNat then raise .invalidArg s
       else if sec = 0 ∧ usec = 0 then raise .invalidArg s
       else answer { s with respToSec := sec, respToUsec := usec }) := by
  simp only [execSetRespTimeout, idle, Bool.false_eq_true, if_false]

/-- R134 during a reception. -/
theorem execSetByteTimeout_busy (busy : s.busy = true) : execSetByteTimeout sec usec s = .next (raise .busy s) := by
  rw [execSetByteTimeout, if_pos busy]

/-- R134 while no reception is in progress: the microseconds are checked, and the zero pair is legal. -/
theorem execSetByteTimeout_idle (idle : s.busy = false) :
    execSetByteTimeout sec usec s = .next
      (if 1000000 ≤ usec.toNat then raise .invalidArg s
       else answer { s with byteToSec := sec, byteToUsec := usec }) := by
  simp only [execSetByteTimeout, idle, Bool.false_eq_true, if_false]

/-- R195 during a reception. -/
theorem execRxStart_busy (busy : s.busy = true) : execRxStart s = .next (raise .busy s) := by
  rw [execRxStart, if_pos busy]

end Setters

/-! ### The reading operations (R77, R135, R204, R237, R238) -/

/-- R77: the reading operations. -/
def IsRead (i : Instr) : Prop := (∃ r, i = .readReg r) ∨ (∃ k, i = .rxRead k) ∨ i = .rxConfirm

/-- R77, R130: what a reading operation does: it answers a value, or is refused for another reason than a reception in
progress, and writes the result output alone. -/
def OnlyAnswers (s t : State) : Prop := (∃ e, e ≠ .busy ∧ t = raise e s) ∨ ∃ v, t = answerWith v s

/-- R77: no field but the result output is written. -/
theorem OnlyAnswers.unchanged {s t : State} (h : OnlyAnswers s t) : t = { s with result := t.result } := by
  rcases h with ⟨e, _, rfl⟩ | ⟨v, rfl⟩ <;> rfl

/-- R130: the status is not `BUSY`. -/
theorem OnlyAnswers.not_busy {s t : State} (h : OnlyAnswers s t) (v : Value) : t.result ≠ some ⟨.busy, v⟩ := by
  rcases h with ⟨e, notBusy, rfl⟩ | ⟨w, rfl⟩
  · rw [raise_result]
    rintro ⟨⟩
    exact notBusy rfl
  · rw [answerWith_result]
    rintro ⟨⟩

/-- R135: a register's value, or the refusal of an unassigned number. -/
theorem execReadReg_onlyAnswers (r : Byte) (s t : State) (h : execReadReg r s = .next t) : OnlyAnswers s t := by
  unfold execReadReg at h
  split at h <;> cases h
  · exact .inl ⟨.invalidArg, by decide, rfl⟩
  · exact .inr ⟨_, rfl⟩

/-- R204: a received byte, or the refusal of an offset past the received ones. -/
theorem execRxRead_onlyAnswers (k : Word32) (s t : State) (h : execRxRead k s = .next t) : OnlyAnswers s t := by
  unfold execRxRead at h
  split at h
  · cases h; exact .inl ⟨.invalidArg, by decide, rfl⟩
  · split at h <;> cases h
    exact .inr ⟨_, rfl⟩

/-- R231 to R236: no check of a received frame fails with `BUSY`. -/
theorem classify_ne_busy (req : Request) (f : FrameHeader) (len : Nat) : classify req f len ≠ .error .busy := by
  unfold classify
  split_ifs <;> simp

/-- R237, R238: a payload's location, or the status of the check that fails. -/
theorem execRxConfirm_onlyAnswers (s t : State) (h : execRxConfirm s = .next t) : OnlyAnswers s t := by
  rcases execRxConfirm_cases s t h with ⟨_, rfl⟩ | ⟨_, _, f, _, rfl⟩
  · exact .inl ⟨.notReady, by decide, rfl⟩
  · cases classified : classify s.request f s.rxLen.toNat with
    | ok location => exact .inr ⟨_, rfl⟩
    | error e => exact .inl ⟨e, fun busy => classify_ne_busy _ _ _ (busy ▸ classified), rfl⟩

/-- R77: a reading operation writes the result output alone. -/
theorem exec_read_onlyAnswers {i : Instr} {s t : State} (read : IsRead i) (h : exec i s = .next t) :
    OnlyAnswers s t := by
  rcases read with ⟨r, rfl⟩ | ⟨k, rfl⟩ | rfl
  · exact execReadReg_onlyAnswers r s t h
  · exact execRxRead_onlyAnswers k s t h
  · exact execRxConfirm_onlyAnswers s t h

/-- What a confirmation returns does not depend on the result output. -/
theorem confirmResult_withResult (s : State) (old : Option OpResult) (c : Except Status (Nat × Word16)) :
    confirmResult { s with result := old } c = confirmResult s c := by
  cases c <;> rfl

/-- A reading operation does not depend on what the result output held before (notes/assumptions/3.md). -/
theorem exec_read_withResult {i : Instr} (read : IsRead i) (s : State) (old : Option OpResult) :
    exec i { s with result := old } = exec i s := by
  rcases read with ⟨r, rfl⟩ | ⟨k, rfl⟩ | rfl
  · show execReadReg r _ = execReadReg r s
    unfold execReadReg
    cases registerOf r with
    | none => rfl
    | some reg => cases reg <;> rfl
  · rfl
  · show execRxConfirm _ = execRxConfirm s
    simp only [execRxConfirm, confirmResult_withResult] <;> rfl

/-! ### The register map (R50, R135) -/

/-- R135: an assigned number returns its register. -/
theorem execReadReg_assigned {r : Byte} {reg : Register} (s : State) (h : registerOf r = some reg) :
    execReadReg r s = .next (answerWith (.word (registerValue s reg)) s) := by
  simp only [execReadReg, h]

/-- R135: an unassigned number is refused. -/
theorem execReadReg_unassigned {r : Byte} (s : State) (h : registerOf r = none) :
    execReadReg r s = .next (raise .invalidArg s) := by
  simp only [execReadReg, h]

/-- R50: the numbers above 0x12 are unassigned. -/
theorem registerOf_eq_none {r : Byte} (h : 0x12 < r.toNat) : registerOf r = none := by
  unfold registerOf
  split <;> simp only [reduceCtorEq] <;> omega

/-- R50: `SLAVE_VALID` stands above the eight bits of `SLAVE`. -/
theorem slaveRegister_eq (s : State) :
    slaveRegister s = BitVec.ofNat 64 ((if s.slaveValid then 256 else 0) + s.slave.toNat) := by
  have := s.slave.isLt
  apply BitVec.eq_of_toNat_eq
  rw [slaveRegister, BitVec.toNat_setWidth, BitVec.toNat_append, ← Nat.shiftLeft_add_eq_or_of_lt this]
  cases s.slaveValid <;> simp

/-- R50: a valid bit reads as 1 or 0. -/
theorem ofBool_setWidth (b : Bool) : (BitVec.ofBool b).setWidth 64 = if b then 1 else 0 := by
  cases b <;> rfl

end Sys2Proof.Machine

namespace Sys2Proof.Proofs

open Machine Statements

/-- Settles O30: every opcode byte has a row, one of illegal opcodes exactly where the table does not list the byte. -/
theorem opcodesOutsideTheTableAreIllegal : Obligations.OpcodesOutsideTheTableAreIllegal := by
  intro op rest legal
  obtain ⟨row, read⟩ := Option.isSome_iff_exists.1 (hostRow_isSome op)
  have unlisted : row.isIllegal = true ↔ ¬ legal := isIllegal_of_hostRow read
  rw [decode_host_of_row rest read]
  constructor
  · intro notLegal
    obtain ⟨r, rfl⟩ := row.isIllegal_iff.1 (unlisted.2 notLegal)
    exact ⟨illegalInstr op r, rfl, exec_illegalInstr op r⟩
  · intro isLegal i r decoded
    rw [illegal_of_hostOperands decoded, Bool.eq_false_iff]
    exact fun illegal => unlisted.1 illegal isLegal

/-- Settles O47: a read writes the result output alone, which it does not read. -/
theorem readsHaveNoSideEffects : Obligations.ReadsHaveNoSideEffects := by
  intro i s t read h
  have unchanged := (exec_read_onlyAnswers read h).unchanged
  refine ⟨unchanged, ?_⟩
  calc exec i t = exec i { s with result := t.result } := congrArg (exec i) unchanged
    _ = exec i s := exec_read_withResult read s t.result
    _ = .next t := h

/-- Settles O1: the two cases of R131, and the encoder's bytes read back. -/
theorem setSlaveStoresTheAddress : Obligations.SetSlaveStoresTheAddress := fun a _ =>
  ⟨execSetSlave_idle a, execSetSlave_busy a, fun rest => decode_encode_of_legal (.setSlave a) rest rfl rfl⟩

/-- Settles O2: the two cases of R132, and the encoder's bytes read back. -/
theorem setOwnAddrStoresTheAddress : Obligations.SetOwnAddrStoresTheAddress := fun a _ =>
  ⟨execSetOwnAddr_idle a, execSetOwnAddr_busy a, fun rest => decode_encode_of_legal (.setOwnAddr a) rest rfl rfl⟩

/-- Settles O3: the checks in R133's order. -/
theorem setRespTimeoutChecksAndStores : Obligations.SetRespTimeoutChecksAndStores := by
  intro sec usec s
  refine ⟨execSetRespTimeout_busy sec usec, fun idle large => ?_, fun idle noSec noUsec => ?_,
    fun idle small notZero => ?_, fun rest => decode_encode_of_legal (.setRespTimeout sec usec) rest rfl rfl⟩
  all_goals refine (execSetRespTimeout_idle sec usec idle).trans (congrArg _ ?_)
  · exact if_pos large
  · rw [if_pos (⟨noSec, noUsec⟩ : sec = 0 ∧ usec = 0), ite_self]; rfl
  · rw [if_neg (Nat.not_le.2 small), if_neg notZero]; rfl

/-- Settles O4: the check of R134, which lets the zero pair through. -/
theorem setByteTimeoutChecksAndStores : Obligations.SetByteTimeoutChecksAndStores := by
  intro sec usec s
  refine ⟨execSetByteTimeout_busy sec usec, fun idle large => ?_, fun idle small => ?_,
    fun rest => decode_encode_of_legal (.setByteTimeout sec usec) rest rfl rfl⟩
  all_goals refine (execSetByteTimeout_idle sec usec idle).trans (congrArg _ ?_)
  · exact if_pos large
  · exact if_neg (Nat.not_le.2 small)

/-- Settles O5: the register map row by row, and no register above it. -/
theorem readRegReturnsTheMappedRegister : Obligations.ReadRegReturnsTheMappedRegister := by
  intro s reads
  have mapped (r : Byte) (reg : Register) (h : registerOf r = some reg) : reads r (registerValue s reg) :=
    execReadReg_assigned s h
  refine ⟨slaveRegister_eq s ▸ mapped 0x00 .slave rfl, mapped 0x01 .ownAddr rfl, mapped 0x02 .seq rfl,
    mapped 0x03 .respToSec rfl, mapped 0x04 .respToUsec rfl, mapped 0x05 .byteToSec rfl, mapped 0x06 .byteToUsec rfl,
    mapped 0x07 .crc rfl, mapped 0x08 .rxState rfl, mapped 0x09 .rxStatus rfl, mapped 0x0A .rxErrcode rfl,
    mapped 0x0B .rxLen rfl, mapped 0x0C .rxRemaining rfl, mapped 0x0D .timer rfl,
    ofBool_setWidth s.reqValid ▸ mapped 0x0E .reqValid rfl, mapped 0x0F .reqDst rfl, mapped 0x10 .reqSrc rfl,
    mapped 0x11 .reqSeq rfl, mapped 0x12 .reqCmd rfl, fun r above => ?_, fun r rest => ?_⟩
  · exact execReadReg_unassigned s (registerOf_eq_none above)
  · exact decode_encode_of_legal (.readReg r) rest rfl rfl

/-- Settles O13: the rows, each by the refusal they share. -/
theorem illegalOpcodesChangeNothing : Obligations.IllegalOpcodesChangeNothing := by
  intro op s
  have refused (row : IllegalRow) : exec (illegalInstr op row) s = .next (refusedWith .illegalOp s) :=
    exec_illegalInstr op row s
  exact ⟨refused .from00, refused .from06, refused .from08, refused .from12, refused .from14, refused .from18,
    refused .from21, refused .from22, refused .from24, refused .from28, refused .from33, refused .from34,
    refused .from38, refused .from40, refused .from80⟩

/-- Settles O45: the six refusals, and for the five others what they return. -/
theorem busyRefusesExactlyTheListedOperations : Obligations.BusyRefusesExactlyTheListedOperations := by
  intro i s busy
  constructor
  · rintro (⟨a, rfl⟩ | ⟨a, rfl⟩ | ⟨sec, usec, rfl⟩ | ⟨sec, usec, rfl⟩ | ⟨cmd, data, rfl⟩ | rfl)
    · exact execSetSlave_busy a busy
    · exact execSetOwnAddr_busy a busy
    · exact execSetRespTimeout_busy sec usec busy
    · exact execSetByteTimeout_busy sec usec busy
    · exact congrArg _ (buildRequest_of_busy cmd data s busy)
    · exact execRxStart_busy busy
  · rintro (⟨r, rfl⟩ | rfl | ⟨b, rfl⟩ | ⟨k, rfl⟩ | rfl) t v h
    · exact (execReadReg_onlyAnswers r s t h).not_busy v
    · cases h; rintro ⟨⟩
    · cases h; rintro ⟨⟩
    · exact (execRxRead_onlyAnswers k s t h).not_busy v
    · exact (execRxConfirm_onlyAnswers s t h).not_busy v

end Sys2Proof.Proofs

/-! PROOFS. The statements on spec/41_crc.md: the CRC function (R150 to R152), the CRC generator (R153 to R155) and its
independence (R156), and what the checksum of a frame detects (R172, R199). -/

namespace Sys2Proof.Machine

/-! ### The CRC step (R150) -/

/-- R150: the eight shifts run on the CRC value with the byte added to its low half. -/
theorem crcStep_eq_crcShifts (c : Word16) (b : Byte) : crcStep c b = crcShifts 0xA001 8 (c ^^^ b.setWidth 16) := rfl

/-- R150: a step with one byte loses nothing of the CRC value before it. -/
theorem crcStep_injective_left {c d : Word16} {b : Byte} (h : crcStep c b = crcStep d b) : c = d :=
  (BitVec.xor_left_inj _).1 (crcShifts_injective 8 _ _ h)

/-- R150: a step from one CRC value tells any two bytes apart. -/
theorem crcStep_injective_right {c : Word16} {a b : Byte} (h : crcStep c a = crcStep c b) : a = b := by
  have padded : a.setWidth 16 = b.setWidth 16 := (BitVec.xor_right_inj _).1 (crcShifts_injective 8 _ _ h)
  have narrowed := congrArg (BitVec.setWidth 8) padded
  rwa [BitVec.setWidth_setWidth_of_le _ (by decide), BitVec.setWidth_setWidth_of_le _ (by decide),
    BitVec.setWidth_eq, BitVec.setWidth_eq] at narrowed

/-- R150: where the bits shifted out are all 0, the polynomial never enters. -/
theorem crcShifts_shiftLeft (y : Byte) (n : Nat) (hn : n ≤ 8) :
    crcShifts 0xA001 n (y.setWidth 16 <<< n) = y.setWidth 16 := by
  induction n with
  | zero => exact BitVec.shiftLeft_zero _
  | succ n ih =>
    have oneShift : crcShift 0xA001 (y.setWidth 16 <<< (n + 1)) = y.setWidth 16 <<< n := by
      apply BitVec.eq_of_getLsbD_eq
      intro i hi
      rw [crcShift_getLsbD]
      simp only [BitVec.getLsbD_shiftLeft, BitVec.getLsbD_setWidth, Nat.add_sub_add_right]
      rcases Nat.lt_or_ge i 15 with inside | top
      · simp [show i + 1 < 16 by omega, hi]
      · simp [show ¬ i + 1 < 16 by omega, BitVec.getLsbD_of_ge y (i - n) (by omega)]
    rw [crcShifts, oneShift, ih (by omega)]

/-- R8: cancelling a word's low byte leaves its high byte in place. -/
theorem be16_xor_setWidth (h l : Byte) : be16 h l ^^^ l.setWidth 16 = h.setWidth 16 <<< 8 := by
  apply BitVec.eq_of_getLsbD_eq
  intro i hi
  simp only [be16, BitVec.getLsbD_xor, BitVec.getLsbD_append, BitVec.getLsbD_setWidth, BitVec.getLsbD_shiftLeft]
  rcases Nat.lt_or_ge i 8 with low | high
  · simp [low, hi]
  · simp [Nat.not_lt.2 high, hi, show i - 8 < 16 by omega, BitVec.getLsbD_of_ge l i high]

/-- R8: where cancelling `x` leaves `y` as the high byte alone, `x` and `y` are the word's two bytes. -/
theorem xor_setWidth_eq_shiftLeft_iff (c : Word16) (x y : Byte) :
    c ^^^ x.setWidth 16 = y.setWidth 16 <<< 8 ↔ x = lo8 c ∧ y = hi8 c := by
  rw [← be16_xor_setWidth, BitVec.xor_left_inj]
  constructor
  · rintro rfl; exact ⟨(lo8_be16 y x).symm, (hi8_be16 y x).symm⟩
  · rintro ⟨rfl, rfl⟩; exact (be16_hi8_lo8 c).symm

/-- R150: a step that leaves only a low byte has cancelled the CRC value's own low byte and kept its high one. -/
theorem crcStep_eq_setWidth_iff (c : Word16) (x y : Byte) : crcStep c x = y.setWidth 16 ↔ x = lo8 c ∧ y = hi8 c := by
  have eightShifts := crcShifts_shiftLeft y 8 (by decide)
  rw [← xor_setWidth_eq_shiftLeft_iff, crcStep_eq_crcShifts]
  constructor
  · intro h; exact crcShifts_injective 8 _ _ (h.trans eightShifts.symm)
  · intro h; rw [h, eightShifts]

/-- R150: a step leaves 0 exactly where the byte is the whole CRC value. -/
theorem crcStep_eq_zero_iff (c : Word16) (b : Byte) : crcStep c b = 0 ↔ c = b.setWidth 16 := by
  have same : crcStep (b.setWidth 16) b = 0 := by
    rw [crcStep_eq_crcShifts, BitVec.xor_self]; rfl
  constructor
  · intro h; exact crcStep_injective_left (h.trans same.symm)
  · rintro rfl; exact same

/-! ### The CRC of a list (R151, R152) -/

/-- R152: the residue: two bytes after a list bring its CRC to 0 exactly where they are that CRC, low byte first. -/
theorem crc16_append_eq_zero_iff (f : List Byte) (x y : Byte) :
    crc16 (f ++ [x, y]) = 0 ↔ x = lo8 (crc16 f) ∧ y = hi8 (crc16 f) := by
  rw [crc16_append, List.foldl_cons, List.foldl_cons, List.foldl_nil, crcStep_eq_zero_iff, crcStep_eq_setWidth_iff]

/-- R151: whatever bytes follow, they lose nothing of the CRC value before them. -/
theorem foldl_crcStep_injective {l : List Byte} {c d : Word16} (h : l.foldl crcStep c = l.foldl crcStep d) : c = d := by
  induction l generalizing c d with
  | nil => exact h
  | cons b l ih => exact crcStep_injective_left (ih h)

/-- R151: the CRC tells two lists apart that differ in one byte. -/
theorem crc16_ne_of_one_byte (before after : List Byte) {a b : Byte} (h : a ≠ b) :
    crc16 (before ++ a :: after) ≠ crc16 (before ++ b :: after) := by
  rw [crc16_append, crc16_append]
  exact fun same => h (crcStep_injective_right (foldl_crcStep_injective (l := after) same))

/-- R151: replacing one byte by another changes the CRC. -/
theorem crc16_set_ne {f : List Byte} {k : Nat} {old new : Byte} (hold : f[k]? = some old) (h : new ≠ old) :
    crc16 (f.set k new) ≠ crc16 f := by
  obtain ⟨hk, rfl⟩ := List.getElem?_eq_some_iff.1 hold
  have rejoined : f.take k ++ f[k] :: f.drop (k + 1) = f := by simp
  rw [List.set_eq_take_append_cons_drop, if_pos hk]
  exact fun same => crc16_ne_of_one_byte _ _ h (same.trans (congrArg crc16 rejoined.symm))

/-! ### The integrity check as a residue (R152, R199) -/

/-- R152, R199: a frame with room for a trailer passes the check exactly where its CRC, trailer included, is 0. -/
theorem integrityOk_iff_crc16_eq_zero {f : List Byte} (h : 2 ≤ f.length) : integrityOk f = true ↔ crc16 f = 0 := by
  obtain ⟨x, y, trailer⟩ := List.length_eq_two.1 (show (f.drop (f.length - 2)).length = 2 by rw [List.length_drop]; omega)
  rw [← List.take_append_drop (f.length - 2) f, trailer, integrityOk_append, crc16_append_eq_zero_iff]

/-- R172, R199: a finalized body passes the check. -/
theorem integrityOk_finalize (body : List Byte) : integrityOk (finalize body) = true := by
  rw [finalize_eq]
  exact (integrityOk_append _ _ _).2 ⟨rfl, rfl⟩

/-! ### The CRC generator (R153 to R155) -/

/-- R155: with `CRC_XOROUT` 0, `CRC` is read as it stands. -/
theorem registerValue_crc (s : State) : registerValue s .crc = s.crc.setWidth 64 :=
  congrArg (BitVec.setWidth 64) BitVec.xor_zero

/-- R154: one `CRC_UPDATE` for each byte of a list runs the CRC steps in order. -/
theorem run_crcUpdates (l : List Byte) (s : State) :
    ∃ t, run (l.map Instr.crcUpdate) s = some t ∧ t.crc = l.foldl crcStep s.crc := by
  induction l generalizing s with
  | nil => exact ⟨s, rfl, rfl⟩
  | cons b l ih => exact ih (answer { s with crc := crcStep s.crc b })

end Sys2Proof.Machine

namespace Sys2Proof.Proofs

open Machine Statements

/-- Settles O25: the table of R152 computed, and the residue. -/
theorem crcCheckValuesAndResidue : Obligations.CrcCheckValuesAndResidue :=
  ⟨by decide, by decide, by decide, by decide, by decide, by decide +kernel, crc16_append_eq_zero_iff⟩

/-- Settles O6: the meaning of `CRC_INIT`, and the encoder's byte read back. -/
theorem crcInitStartsANewCrc : Obligations.CrcInitStartsANewCrc :=
  ⟨fun _ => rfl, fun rest => decode_encode_of_legal .crcInit rest rfl rfl⟩

/-- Settles O7: the step of R150 unrolled, and the encoder's bytes read back. -/
theorem crcUpdateTakesOneCrcStep : Obligations.CrcUpdateTakesOneCrcStep := fun b _ =>
  ⟨rfl, fun rest => decode_encode_of_legal (.crcUpdate b) rest rfl rfl⟩

/-- Settles O26: the generator's steps are the fold that `crc16` is, and register 0x07 shows it. -/
theorem crcGeneratorComputesCrc16 : Obligations.CrcGeneratorComputesCrc16 := by
  intro l s
  obtain ⟨t, ran, crc⟩ := run_crcUpdates l (answer { s with crc := 0xFFFF })
  have computed : t.crc = crc16 l := crc.trans (crc16_eq_foldl l).symm
  have readBack := execReadReg_assigned t (show registerOf 0x07 = some .crc from rfl)
  refine ⟨_, (run_cons _ _ s _ rfl).trans (run_snoc _ _ _ t _ ran readBack), computed, ?_⟩
  rw [← computed, answerWith_result, registerValue_crc]

/-- Settles O27: an intact frame has residue 0, and a changed byte gives another CRC. -/
theorem checksumCatchesAnyChangedByte : Obligations.ChecksumCatchesAnyChangedByte := by
  intro body
  refine ⟨integrityOk_finalize body, fun k old new hold changed => ?_⟩
  have long : 2 ≤ (finalize body).length := by rw [finalize_length]; omega
  have residue : crc16 (finalize body) = 0 := (integrityOk_iff_crc16_eq_zero long).1 (integrityOk_finalize body)
  rw [Bool.eq_false_iff, ne_eq, integrityOk_iff_crc16_eq_zero (by rwa [List.length_set]), ← residue]
  exact crc16_set_ne hold changed

end Sys2Proof.Proofs

namespace Sys2Proof.Machine

/-! ### What a reception reads (R190 to R202) -/

/-- `v` agrees with `s` on the only things a reception reads beside its own fields: the bound on a frame's length (R197)
and the byte timeout (R192). -/
structure SameReceptionSettings (s v : State) : Prop where
  maxFrameLen : v.params.maxFrameLen = s.params.maxFrameLen
  byteTicks : byteTicks v = byteTicks s

section Reception

variable {s t v : State} (same : SameReceptionSettings s v)
include same

/-- R196, R198: a stored byte changes neither. -/
theorem SameReceptionSettings.of_storeByte {b : Byte} (h : storeByte b s = .ok t) : SameReceptionSettings t v := by
  obtain ⟨_, _, rfl⟩ := (storeByte_ok b s t).1 h
  exact ⟨same.maxFrameLen, same.byteTicks⟩

/-- R196, R198: a byte is stored the same beside other fields, which stay, and so below for what a reception does. -/
theorem storeByte_beside {b : Byte} (h : storeByte b s = .ok t) :
    storeByte b (v.withReceptionOf s) = .ok (v.withReceptionOf t) := by
  obtain ⟨room, left, rfl⟩ := (storeByte_ok b s t).1 h
  exact (storeByte_ok b _ _).2 ⟨room.trans_eq same.maxFrameLen.symm, left, rfl⟩

/-- R192: the timer is re-armed the same. -/
theorem rearm_beside : rearm (v.withReceptionOf s) = v.withReceptionOf (rearm s) := by
  have sameTicks : byteTicks (v.withReceptionOf s) = byteTicks s := same.byteTicks
  simp only [rearm, sameTicks]; rfl

/-- R197: a header completes the same. -/
theorem headerComplete_beside (h : headerComplete s = .ok t) :
    headerComplete (v.withReceptionOf s) = .ok (v.withReceptionOf t) := by
  refine (headerComplete_ok _ _).2 ?_
  obtain ⟨n, declared, ⟨long, rfl⟩ | ⟨fits, rfl⟩⟩ := (headerComplete_ok s t).1 h
  · exact ⟨n, declared, .inl ⟨same.maxFrameLen.trans_lt long, rfl⟩⟩
  · refine ⟨n, declared, .inr ⟨fits.trans_eq same.maxFrameLen.symm, ?_⟩⟩
    exact (rearm_beside (s := { s with rxRemaining := _, rxState := .payload })
      ⟨same.maxFrameLen, same.byteTicks⟩).symm

omit same in
/-- R198, R199: a frame completes the same. -/
theorem frameComplete_beside (v : State) (h : frameComplete s = .ok t) :
    frameComplete (v.withReceptionOf s) = .ok (v.withReceptionOf t) := by
  obtain ⟨f, read, rfl⟩ := (frameComplete_ok s t).1 h
  exact (frameComplete_ok _ _).2 ⟨f, read, rfl⟩

/-- R196: a byte in `HEADER`. -/
theorem headerByte_beside {b : Byte} (h : headerByte b s = .ok t) :
    headerByte b (v.withReceptionOf s) = .ok (v.withReceptionOf t) := by
  refine (headerByte_ok b _ _).2 ?_
  obtain ⟨u, stored, ended⟩ := (headerByte_ok b s t).1 h
  refine ⟨v.withReceptionOf u, storeByte_beside same stored, ended.imp ?_ ?_⟩
  · exact fun ⟨last, complete⟩ => ⟨last, headerComplete_beside (same.of_storeByte stored) complete⟩
  · exact fun ⟨more, unchanged⟩ => ⟨more, congrArg _ unchanged⟩

/-- R198: a byte in `PAYLOAD`. -/
theorem payloadByte_beside {b : Byte} (h : payloadByte b s = .ok t) :
    payloadByte b (v.withReceptionOf s) = .ok (v.withReceptionOf t) := by
  refine (payloadByte_ok b _ _).2 ?_
  obtain ⟨u, stored, ended⟩ := (payloadByte_ok b s t).1 h
  refine ⟨v.withReceptionOf u, storeByte_beside same stored, ended.imp ?_ ?_⟩
  · exact fun ⟨last, complete⟩ => ⟨last, frameComplete_beside v complete⟩
  · rintro ⟨more, rfl⟩
    exact ⟨more, (rearm_beside (same.of_storeByte stored)).symm⟩

/-- R190: a received byte. -/
theorem execRxByte_beside {b : Byte} (h : execRxByte b s = .next t) :
    execRxByte b (v.withReceptionOf s) = .next (v.withReceptionOf t) := by
  rcases execRxByte_next b s t h with ⟨idle, rfl⟩ | ⟨header, u, taken, rfl⟩ | ⟨payload, u, taken, rfl⟩
  · exact execRxByte_idle b (v.withReceptionOf t) idle
  · exact execRxByte_header b (v.withReceptionOf s) _ header (headerByte_beside same taken)
  · exact execRxByte_payload b (v.withReceptionOf s) _ payload (payloadByte_beside same taken)

omit same in
/-- R200: a tick. -/
theorem execTick_beside (v : State) (h : execTick s = .next t) :
    execTick (v.withReceptionOf s) = .next (v.withReceptionOf t) := by
  rcases execTick_next s t h with ⟨idle, rfl⟩ | ⟨busy, u, counted, rfl⟩
  · exact execTick_idle (v.withReceptionOf s) idle
  · refine execTick_busy (v.withReceptionOf s) (v.withReceptionOf u) busy ((countTick_ok _ _).2 ?_)
    rcases (countTick_ok s u).1 counted with ⟨last, rfl⟩ | ⟨notZero, notLast, rfl⟩
    · exact .inl ⟨last, rfl⟩
    · exact .inr ⟨notZero, notLast, rfl⟩

/-- R190: an event other than reset reads the receive controller's fields and the reception's settings alone: beside
other values of the other fields it does the same and leaves those values. -/
theorem exec_event_beside {i : Instr} (hp : portOf i = .event) (hr : i ≠ .reset) (h : exec i s = .next t) :
    exec i (v.withReceptionOf s) = .next (v.withReceptionOf t) := by
  cases i <;> simp only [portOf, reduceCtorEq] at hp
  case rxByte b => exact execRxByte_beside same h
  case tick => exact execTick_beside v h
  case rxEof => cases h; simp only [apply_ite v.withReceptionOf]; rfl
  case rxError code => cases h; simp only [apply_ite v.withReceptionOf]; rfl
  case reset => exact absurd rfl hr

end Reception

/-! ### The read of the receive buffer (R204) -/

/-- R204: the two ways a read of the receive buffer completes. -/
theorem execRxRead_next_iff (k : Word32) (s t : State) :
    execRxRead k s = .next t ↔
      (s.rxLen.toNat ≤ k.toNat ∧ t = raise .invalidArg s) ∨
      (k.toNat < s.rxLen.toNat ∧ ∃ b, Memory.read s.rxBuf k.toNat = some b ∧ t = answerWith (.byte b) s) := by
  unfold execRxRead
  by_cases past : s.rxLen.toNat ≤ k.toNat
  · simp [past, Nat.not_lt.2 past, eq_comm]
  · cases Memory.read s.rxBuf k.toNat with
    | none => simp [past]
    | some b => simp [past, Nat.not_le.1 past, eq_comm]

/-! ### The other operations under another CRC value (R156) -/

/-- The state with another value in `CRC`. -/
def State.withCrc (c : Word16) (s : State) : State := { s with crc := c }

section Crc

variable (c : Word16) {s t : State}

/-- R156: an event. -/
theorem exec_event_withCrc {i : Instr} (hp : portOf i = .event) (hr : i ≠ .reset) (h : exec i s = .next t) :
    exec i (s.withCrc c) = .next (t.withCrc c) := by
  obtain ⟨u, rfl⟩ := exec_event_withReceptionOf i s t hp hr h
  exact exec_event_beside (s := s) (v := s.withCrc c) ⟨rfl, rfl⟩ hp hr h

/-- R156: a build, whose frame's checksum is over the frame alone. -/
theorem buildRequest_withCrc (cmd : Byte) (data : List Byte) (s : State) :
    buildRequest cmd data (s.withCrc c) = (buildRequest cmd data s).withCrc c := by
  simp only [buildRequest, apply_ite (State.withCrc c)]; rfl

/-- R156: a read of the receive buffer. -/
theorem execRxRead_withCrc {k : Word32} (h : execRxRead k s = .next t) :
    execRxRead k (s.withCrc c) = .next (t.withCrc c) := by
  refine (execRxRead_next_iff k _ _).2 ?_
  rcases (execRxRead_next_iff k s t).1 h with ⟨past, rfl⟩ | ⟨received, b, held, rfl⟩
  · exact .inl ⟨past, rfl⟩
  · exact .inr ⟨received, b, held, rfl⟩

/-- R156: a confirmation. -/
theorem execRxConfirm_withCrc (h : execRxConfirm s = .next t) :
    execRxConfirm (s.withCrc c) = .next (t.withCrc c) := by
  rcases execRxConfirm_cases s t h with ⟨notReady, rfl⟩ | ⟨done, request, f, header, rfl⟩
  · exact execRxConfirm_notReady (s.withCrc c) notReady
  · rw [execRxConfirm_classified (s.withCrc c) f done request header]
    show Host.Outcome.next (confirmResult _ (classify s.request f s.rxLen.toNat)) = _
    cases classify s.request f s.rxLen.toNat <;> rfl

/-- R156: a host operation other than the CRC generator's own and the register read. -/
theorem exec_host_withCrc {i : Instr} (hp : portOf i ≠ .event) (notInit : i ≠ .crcInit)
    (notUpdate : ∀ b, i ≠ .crcUpdate b) (notRead : ∀ r, i ≠ .readReg r) (h : exec i s = .next t) :
    exec i (s.withCrc c) = .next (t.withCrc c) := by
  cases i with
  | rxByte _ | rxEof | rxError _ | tick | reset => exact absurd rfl hp
  | crcInit => exact absurd rfl notInit
  | crcUpdate b => exact absurd rfl (notUpdate b)
  | readReg r => exact absurd rfl (notRead r)
  | rxRead k => exact execRxRead_withCrc c h
  | rxConfirm => exact execRxConfirm_withCrc c h
  | txBuild cmd data | cmdUnrecognized cmd data | cmdException cmd data =>
    cases h; exact congrArg _ (buildRequest_withCrc c cmd data s)
  | cmdSetColor data | cmdSetMode data | cmdOta data | cmdGetVersion data | cmdSetOutput data =>
    cases h; exact congrArg _ (buildRequest_withCrc c _ data s)
  | setSlave _ | setOwnAddr _ | setRespTimeout _ _ | setByteTimeout _ _ | rxStart =>
    cases h; simp only [apply_ite (State.withCrc c)]; rfl
  | illegalOp00 | illegalOp06To07 _ | illegalOp08To0F _ | illegalOp12To13 _ | illegalOp14To17 _ | illegalOp18To1F _
  | illegalOp21 | illegalOp22To23 _ | illegalOp24To27 _ | illegalOp28To2F _ | illegalOp33 | illegalOp34To37 _
  | illegalOp38To3F _ | illegalOp40To7F _ | illegalOp80ToFF _ => cases h; rfl

/-- R156: every input but the CRC generator's own, the register read and reset does the same under any value of `CRC`. -/
theorem exec_withCrc {i : Instr} (notInit : i ≠ .crcInit) (notUpdate : ∀ b, i ≠ .crcUpdate b)
    (notRead : ∀ r, i ≠ .readReg r) (notReset : i ≠ .reset) (h : exec i s = .next t) :
    exec i (s.withCrc c) = .next (t.withCrc c) := by
  by_cases hp : portOf i = .event
  · exact exec_event_withCrc c hp notReset h
  · exact exec_host_withCrc c hp notInit notUpdate notRead h

end Crc

end Sys2Proof.Machine

namespace Sys2Proof.Proofs

open Machine Statements

/-- Settles O40: what an input does under every value of `CRC`, it does under the value `CRC` has, and so leaves it. -/
theorem crcRegisterIsIndependent : Obligations.CrcRegisterIsIndependent := by
  constructor
  · intro i c s t notInit notUpdate notRead notReset h
    have under (c : Word16) : exec i (s.withCrc c) = .next (t.withCrc c) :=
      exec_withCrc c notInit notUpdate notRead notReset h
    have sameState : t = t.withCrc s.crc := Host.Outcome.next.inj (h.symm.trans (under s.crc))
    have sameCrc : t.crc = (t.withCrc s.crc).crc := congrArg State.crc sameState
    exact ⟨sameCrc, under c⟩
  · rintro i s (rfl | ⟨b, rfl⟩)
    · exact ⟨_, rfl, rfl⟩
    · exact ⟨_, rfl, rfl⟩

end Sys2Proof.Proofs

/-! PROOFS. The statements on spec/42_frame_encoder.md: the response length (R170) and the build of a request (R173,
R174). -/

namespace Sys2Proof.Machine

open Statements

/-! ### Builds in a row (R174) -/

/-- R173: a build whose conditions hold runs. -/
theorem exec_txBuild_of_mayBuild {cmd : Byte} {data : List Byte} {s : State} (allowed : mayBuild data s) :
    exec (.txBuild cmd data) s = .next (built cmd data s) :=
  congrArg _ (buildRequest_of_mayBuild cmd data s allowed)

/-- R173: a build changes none of the conditions of the next one. -/
theorem mayBuild_built_iff (cmd : Byte) (data next : List Byte) (s : State) :
    mayBuild next (built cmd data s) ↔ mayBuild next s := Iff.rfl

/-- R173, R174: the state once the requests have been built one after another. -/
def builtInARow (reqs : List (Byte × List Byte)) (s : State) : State := reqs.foldl (fun u r => built r.1 r.2 u) s

/-- R173: builds whose conditions hold at the start all run. -/
theorem run_txBuilds (reqs : List (Byte × List Byte)) (s : State) (allowed : ∀ r ∈ reqs, mayBuild r.2 s) :
    run (reqs.map fun r => .txBuild r.1 r.2) s = some (builtInARow reqs s) := by
  induction reqs generalizing s with
  | nil => rfl
  | cons r reqs ih =>
    obtain ⟨first, later⟩ := List.forall_mem_cons.1 allowed
    have stillAllowed : ∀ q ∈ reqs, mayBuild q.2 (built r.1 r.2 s) :=
      fun q hq => (mayBuild_built_iff r.1 r.2 q.2 s).2 (later q hq)
    rw [List.map_cons, run_cons _ _ s _ (exec_txBuild_of_mayBuild first)]
    exact ih _ stillAllowed

/-- R174: each build advances `SEQ` by one, modulo 2^16. -/
theorem builtInARow_seq (reqs : List (Byte × List Byte)) (s : State) :
    (builtInARow reqs s).seq = s.seq + BitVec.ofNat 16 reqs.length := by
  induction reqs generalizing s with
  | nil => exact (BitVec.add_zero s.seq).symm
  | cons r reqs ih =>
    calc (builtInARow (r :: reqs) s).seq
      _ = s.seq + 1 + BitVec.ofNat 16 reqs.length := ih (built r.1 r.2 s)
      _ = s.seq + BitVec.ofNat 16 (r :: reqs).length := by
        rw [List.length_cons, Nat.add_comm, BitVec.ofNat_add, BitVec.add_assoc]; rfl

/-- R174: the last request carries the `SEQ` that the builds before it left. -/
theorem builtInARow_concat_reqSeq (reqs : List (Byte × List Byte)) (r : Byte × List Byte) (s : State) :
    (builtInARow (reqs ++ [r]) s).reqSeq = s.seq + BitVec.ofNat 16 reqs.length := by
  have lastOne : builtInARow (reqs ++ [r]) s = built r.1 r.2 (builtInARow reqs s) := List.foldl_concat _ _ _ _
  rw [lastOne, ← builtInARow_seq]
  rfl

end Sys2Proof.Machine

namespace Sys2Proof.Proofs

open Machine Statements

/-- Settles O48: the builds all run; the last request's number is the `SEQ` that the builds before it left. -/
theorem sequenceNumbersCountBuilds : Obligations.SequenceNumbersCountBuilds := by
  intro reqs s allowed
  refine ⟨builtInARow reqs s, run_txBuilds reqs s allowed, builtInARow_seq reqs s, fun nonempty => ?_⟩
  obtain ⟨before, last, rfl⟩ := (List.eq_nil_or_concat' reqs).resolve_left nonempty
  rw [builtInARow_concat_reqSeq, List.length_append, List.length_singleton, Nat.add_sub_cancel]

/-- Settles O8: R173's cases as for every name of a build, and the encoder's bytes read back. -/
theorem txBuildReturnsTheRequestFrame : Obligations.TxBuildReturnsTheRequestFrame := fun cmd data s =>
  ⟨buildsByR173_of_exec (.txBuild cmd data) cmd data s rfl, fun fits rest => decode_txBuildBytes cmd data rest fits⟩

/-- Settles O23: get-version is the only command R170 excepts. -/
theorem responseLengthByCommand : Obligations.ResponseLengthByCommand :=
  ⟨if_pos rfl, fun _ otherCommand => if_neg otherCommand⟩

end Sys2Proof.Proofs

/-! PROOFS. The statements on spec/43_receive_controller.md: the receive controller's operations one by one (R190 to
R204), which inputs are taken (R193), what leaves a reception alone (R190, R203), its deadlines (R200, R206) and its
length (R205). -/

namespace Sys2Proof.Machine

open Statements

/-! ### One received byte (R192, R196 to R198) -/

/-- R192: what re-arming makes of `TIMER`. -/
theorem rearm_eq_rearmed (s : State) : rearm s = { s with timer := rearmed s } := by
  have off : byteTicks s = 0 ↔ s.byteToSec = 0 ∧ s.byteToUsec = 0 := timeoutTicks_eq_zero _ _
  by_cases disabled : byteTicks s = 0
  · rw [rearm_disabled s disabled, rearmed, if_pos (off.1 disabled)]
  · rw [rearm_enabled s disabled, rearmed, if_neg (mt off.2 disabled)]; rfl

/-- R196, R198: the state once a byte is stored, before it is looked at whether it was the last one. -/
def afterStore (b : Byte) (s : State) : State :=
  { s with
    rxBuf := Memory.write s.rxBuf s.rxLen.toNat b
    rxLen := s.rxLen + 1
    rxRemaining := s.rxRemaining - 1 }

/-- R196, R198: a byte with room in the buffer, where one is to come, is stored. -/
theorem storeByte_eq_afterStore (b : Byte) {s : State} (room : s.rxLen.toNat < s.params.maxFrameLen)
    (left : 1 ≤ s.rxRemaining.toNat) : storeByte b s = .ok (afterStore b s) := by
  have notZero : s.rxRemaining ≠ 0 := by rw [ne_eq, eq_zero32]; omega
  exact (storeByte_ok b s _).2 ⟨room, notZero, rfl⟩

/-- R196, R198: it is the last one where one was to come. -/
theorem afterStore_rxRemaining_eq_zero (b : Byte) {s : State} (left : 1 ≤ s.rxRemaining.toNat) :
    (afterStore b s).rxRemaining = 0 ↔ s.rxRemaining.toNat = 1 := by
  show s.rxRemaining - 1 = 0 ↔ _
  rw [eq_zero32, toNat_pred32 _ (by omega)]
  omega

section Byte

variable {b : Byte} {s t : State} (room : s.rxLen.toNat < s.params.maxFrameLen)
include room

/-- R196: a byte of the header with more to come. -/
theorem execRxByte_header_more (hst : s.rxState = .header) (more : 1 < s.rxRemaining.toNat) :
    execRxByte b s = .next (silent (afterStore b s)) := by
  have stillLeft := mt (afterStore_rxRemaining_eq_zero b more.le).1 more.ne'
  exact execRxByte_header b s _ hst
    ((headerByte_ok b s _).2 ⟨_, storeByte_eq_afterStore b room more.le, .inr ⟨stillLeft, rfl⟩⟩)

/-- R196, R197: the last byte of the header. -/
theorem execRxByte_header_last (hst : s.rxState = .header) (last : s.rxRemaining.toNat = 1)
    (complete : headerComplete (afterStore b s) = .ok t) : execRxByte b s = .next (silent t) := by
  have noneLeft := (afterStore_rxRemaining_eq_zero b last.ge).2 last
  exact execRxByte_header b s _ hst
    ((headerByte_ok b s _).2 ⟨_, storeByte_eq_afterStore b room last.ge, .inl ⟨noneLeft, complete⟩⟩)

/-- R198: a byte of the payload or the trailer with more to come. -/
theorem execRxByte_payload_more (hst : s.rxState = .payload) (more : 1 < s.rxRemaining.toNat) :
    execRxByte b s = .next (silent (rearm (afterStore b s))) := by
  have stillLeft := mt (afterStore_rxRemaining_eq_zero b more.le).1 more.ne'
  exact execRxByte_payload b s _ hst
    ((payloadByte_ok b s _).2 ⟨_, storeByte_eq_afterStore b room more.le, .inr ⟨stillLeft, rfl⟩⟩)

/-- R198: the last byte of the frame. -/
theorem execRxByte_payload_last (hst : s.rxState = .payload) (last : s.rxRemaining.toNat = 1)
    (complete : frameComplete (afterStore b s) = .ok t) : execRxByte b s = .next (silent t) := by
  have noneLeft := (afterStore_rxRemaining_eq_zero b last.ge).2 last
  exact execRxByte_payload b s _ hst
    ((payloadByte_ok b s _).2 ⟨_, storeByte_eq_afterStore b room last.ge, .inl ⟨noneLeft, complete⟩⟩)

end Byte

/-! ### One tick, the end of the stream, a transport error (R200 to R202) -/

/-- R200: a tick that a wait has more of. -/
theorem execTick_counts {s : State} (busy : s.busy = true) (more : 1 < s.timer.toNat) :
    execTick s = .next (silent { s with timer := s.timer - 1 }) := by
  have notZero : s.timer ≠ 0 := by rw [ne_eq, eq_zero64]; omega
  have notOne : s.timer ≠ 1 := fun one => more.ne' (congrArg BitVec.toNat one)
  exact execTick_busy s _ busy ((countTick_ok s _).2 (.inr ⟨notZero, notOne, rfl⟩))

/-- R200: the tick that exhausts a wait. -/
theorem execTick_last {s : State} (busy : s.busy = true) (last : s.timer.toNat = 1) :
    execTick s = .next (silent (finish .timeout { s with timer := 0 })) := by
  have one : s.timer = 1 := BitVec.eq_of_toNat_eq last
  exact execTick_busy s _ busy ((countTick_ok s _).2 (.inl ⟨one, rfl⟩))

/-- R201: the end of the stream during a reception. -/
theorem execRxEof_busy {s : State} (busy : s.busy = true) : execRxEof s = .next (silent (finish .connReset s)) := by
  rw [execRxEof, State.rxAccept, if_pos busy]

/-- R193: and while none is in progress. -/
theorem execRxEof_idle {s : State} (idle : s.busy = false) : execRxEof s = .next s := by
  simp only [execRxEof, State.rxAccept, idle, Bool.false_eq_true, if_false]

/-- R202: a transport error during a reception. -/
theorem execRxError_busy (code : Word32) {s : State} (busy : s.busy = true) :
    execRxError code s = .next (silent (finish .transportError { s with rxErrcode := code })) := by
  rw [execRxError, State.rxAccept, if_pos busy]

/-- R193: and while none is in progress. -/
theorem execRxError_idle (code : Word32) {s : State} (idle : s.busy = false) : execRxError code s = .next s := by
  simp only [execRxError, State.rxAccept, idle, Bool.false_eq_true, if_false]

/-! ### What an input does beside other presented inputs (notes/assumptions/2.md) -/

/-- The state with other presented inputs. -/
def State.withInputs (q : List Input) (s : State) : State := { s with inputs := q }

section Inputs

variable (q : List Input) {s t : State}

/-- A build does not look at what else is presented. -/
theorem buildRequest_withInputs (cmd : Byte) (data : List Byte) (s : State) :
    buildRequest cmd data (s.withInputs q) = (buildRequest cmd data s).withInputs q := by
  simp only [buildRequest, apply_ite (State.withInputs q)]; rfl

/-- Nor does a reading operation. -/
theorem exec_read_withInputs {i : Instr} (read : IsRead i) (h : exec i s = .next t) :
    exec i (s.withInputs q) = .next (t.withInputs q) := by
  rcases read with ⟨r, rfl⟩ | ⟨k, rfl⟩ | rfl
  · cases assigned : registerOf r with
    | none =>
      cases (execReadReg_unassigned s assigned).symm.trans h
      exact execReadReg_unassigned (s.withInputs q) assigned
    | some reg =>
      cases (execReadReg_assigned s assigned).symm.trans h
      exact (execReadReg_assigned (s.withInputs q) assigned).trans (by cases reg <;> rfl)
  · refine (execRxRead_next_iff k _ _).2 ?_
    rcases (execRxRead_next_iff k s t).1 h with ⟨past, rfl⟩ | ⟨received, b, held, rfl⟩
    · exact .inl ⟨past, rfl⟩
    · exact .inr ⟨received, b, held, rfl⟩
  · rcases execRxConfirm_cases s t h with ⟨notReady, rfl⟩ | ⟨done, request, f, header, rfl⟩
    · exact execRxConfirm_notReady (s.withInputs q) notReady
    · refine (execRxConfirm_classified (s.withInputs q) f done request header).trans (congrArg _ ?_)
      show confirmResult _ (classify s.request f s.rxLen.toNat) = _
      cases classify s.request f s.rxLen.toNat <;> rfl

/-- Nor does any other host operation. -/
theorem exec_host_withInputs {i : Instr} (hp : portOf i ≠ .event) (h : exec i s = .next t) :
    exec i (s.withInputs q) = .next (t.withInputs q) := by
  cases i with
  | rxByte _ | rxEof | rxError _ | tick | reset => exact absurd rfl hp
  | readReg r => exact exec_read_withInputs q (.inl ⟨r, rfl⟩) h
  | rxRead k => exact exec_read_withInputs q (.inr (.inl ⟨k, rfl⟩)) h
  | rxConfirm => exact exec_read_withInputs q (.inr (.inr rfl)) h
  | txBuild cmd data | cmdUnrecognized cmd data | cmdException cmd data =>
    cases h; exact congrArg _ (buildRequest_withInputs q cmd data s)
  | cmdSetColor data | cmdSetMode data | cmdOta data | cmdGetVersion data | cmdSetOutput data =>
    cases h; exact congrArg _ (buildRequest_withInputs q _ data s)
  | setSlave _ | setOwnAddr _ | setRespTimeout _ _ | setByteTimeout _ _ | rxStart =>
    cases h; simp only [apply_ite (State.withInputs q)]; rfl
  | crcInit | crcUpdate _ | illegalOp00 | illegalOp06To07 _ | illegalOp08To0F _ | illegalOp12To13 _ | illegalOp14To17 _
  | illegalOp18To1F _ | illegalOp21 | illegalOp22To23 _ | illegalOp24To27 _ | illegalOp28To2F _ | illegalOp33
  | illegalOp34To37 _ | illegalOp38To3F _ | illegalOp40To7F _ | illegalOp80ToFF _ => cases h; rfl

/-- An input does the same whatever else is presented, and leaves that presented. -/
theorem exec_withInputs {i : Instr} (h : exec i s = .next t) : exec i (s.withInputs q) = .next (t.withInputs q) := by
  by_cases hr : i = .reset
  · subst hr; cases h; rfl
  by_cases hp : portOf i = .event
  · obtain ⟨u, rfl⟩ := exec_event_withReceptionOf i s t hp hr h
    exact exec_event_beside (s := s) (v := s.withInputs q) ⟨rfl, rfl⟩ hp hr h
  · exact exec_host_withInputs q hp h

/-- An input writes none of what else is presented. -/
theorem exec_inputs {i : Instr} (h : exec i s = .next t) : t.inputs = s.inputs := by
  have sameState : t = t.withInputs s.inputs := Host.Outcome.next.inj (h.symm.trans (exec_withInputs s.inputs h))
  calc t.inputs = (t.withInputs s.inputs).inputs := congrArg State.inputs sameState
    _ = s.inputs := rfl

end Inputs

/-- R193: what is taken behind an input the block does not accept. -/
theorem takeInput_cons_of_not_takes {a : Bool} {x : Input} (xs : List Input) (h : takes a x = false) :
    takeInput a (x :: xs) = (takeInput a xs).map fun k => { k with before := x :: k.before } := by
  rw [takeInput, h]; rfl

/-! ### What leaves the receive controller alone (R190, R203) -/

theorem sameReception_refl (s : State) : sameReception s s := ⟨rfl, rfl, rfl, rfl, rfl, rfl, rfl⟩

/-- R39: being busy is read off `RX_STATE`. -/
theorem busy_of_sameReception {s t : State} (same : sameReception s t) : t.busy = s.busy :=
  congrArg RxState.receiving same.1

/-- R190: of the host operations that return `OK` only `RX_START` writes the receive controller's fields. -/
theorem HostUpdate.sameReception {s u : State} {i : Instr} (h : HostUpdate s i u) (notStart : i ≠ .rxStart) :
    sameReception s u := by
  cases h with
  | rxStart _ => exact absurd rfl notStart
  | nothing | setSlave _ _ | setOwnAddr _ _ | setRespTimeout _ _ _ | setByteTimeout _ _ _ | crcInit | crcUpdate _ =>
    exact sameReception_refl s

/-- R190: so of all host operations. -/
theorem exec_host_sameReception {i : Instr} {s t : State} (hp : portOf i ≠ .event) (notStart : i ≠ .rxStart)
    (h : exec i s = .next t) : sameReception s t := by
  rcases exec_host_cases i s t hp h with ⟨e, _, _, rfl⟩ | ⟨u, v, written, rfl⟩ | ⟨cmd, data, _, _, _, _, rfl⟩
  · exact sameReception_refl s
  · exact written.sameReception notStart
  · exact sameReception_refl s

/-- R193, R200: while no reception is in progress an event but reset writes none of the fields. -/
theorem exec_event_idle_sameReception {i : Instr} {s t : State} (hp : portOf i = .event) (notReset : i ≠ .reset)
    (idle : s.busy = false) (h : exec i s = .next t) : sameReception s t := by
  cases i <;> simp only [portOf, reduceCtorEq] at hp
  case rxByte b => cases (execRxByte_idle b s idle).symm.trans h; exact sameReception_refl s
  case rxEof => cases (execRxEof_idle idle).symm.trans h; exact sameReception_refl s
  case rxError code => cases (execRxError_idle code idle).symm.trans h; exact sameReception_refl s
  case tick => cases (execTick_idle s idle).symm.trans h; exact sameReception_refl s
  case reset => exact absurd rfl notReset

/-- R203: between receptions only `RX_START` and reset write the fields. -/
theorem exec_idle_sameReception {i : Instr} {s t : State} (idle : s.busy = false) (notStart : i ≠ .rxStart)
    (notReset : i ≠ .reset) (h : exec i s = .next t) : sameReception s t := by
  by_cases hp : portOf i = .event
  · exact exec_event_idle_sameReception hp notReset idle h
  · exact exec_host_sameReception hp notStart h

/-- R190, R195: a host operation neither starts nor ends a reception that is in progress. -/
theorem exec_host_busy {i : Instr} {s t : State} (hp : portOf i ≠ .event) (busy : s.busy = true)
    (h : exec i s = .next t) : t.busy = true := by
  by_cases start : i = .rxStart
  · subst start
    cases (execRxStart_busy busy).symm.trans h
    exact busy
  · exact (busy_of_sameReception (exec_host_sameReception hp start h)).trans busy

/-- R196 to R199: a received byte that ends a reception. -/
theorem execRxByte_ends {b : Byte} {s t : State} (busy : s.busy = true) (h : execRxByte b s = .next t)
    (ended : t.busy = false) :
    (t.rxState = .done ∧ t.rxStatus = .ok) ∨ (t.rxState = .error ∧ (t.rxStatus = .badCrc ∨ t.rxStatus = .badData)) := by
  rcases execRxByte_cases b s t h with ⟨idle, _⟩ | ⟨_, u, stored, outcomes⟩
  · rw [busy] at idle; cases idle
  obtain ⟨_, _, rfl⟩ := (storeByte_ok b s u).1 stored
  rcases outcomes with ⟨e, rfl | rfl | rfl, rfl⟩ | rfl | rfl | ⟨r, rfl⟩
  · exact .inl ⟨rfl, rfl⟩
  · exact .inr ⟨rfl, .inl rfl⟩
  · exact .inr ⟨rfl, .inr rfl⟩
  · exact absurd (ended.symm.trans busy) Bool.false_ne_true
  · exact absurd (ended.symm.trans busy) Bool.false_ne_true
  · cases ended

/-! ### Sequences of inputs -/

/-- R10: the first of a sequence of inputs, and the others from the state it leaves. -/
theorem run_cons_eq_some {i : Instr} {is : List Instr} {s t : State} :
    run (i :: is) s = some t ↔ ∃ u, exec i s = .next u ∧ run is u = some t := by
  rw [run]
  cases exec i s <;> simp

/-- What every input of a kind keeps, a sequence of them keeps. -/
theorem run_keeps {A : Instr → Prop} {P : State → Prop}
    (keeps : ∀ i s t, A i → exec i s = .next t → P s → P t) {is : List Instr} {s t : State} (all : ∀ i ∈ is, A i)
    (h : run is s = some t) (hs : P s) : P t := by
  induction is generalizing s with
  | nil => cases h; exact hs
  | cons i is ih =>
    obtain ⟨u, first, others⟩ := run_cons_eq_some.1 h
    obtain ⟨hi, allOthers⟩ := List.forall_mem_cons.1 all
    exact ih allOthers others (keeps i s u hi first hs)

/-- R205: received bytes and ticks are events, and no reset. -/
theorem event_of_byteOrTick {i : Instr} (h : byteOrTick i = true) : portOf i = .event ∧ i ≠ .reset := by
  cases i <;> simp_all [byteOrTick, portOf]

/-- R190: received bytes and ticks write the receive controller's fields alone. -/
theorem run_byteOrTick_withReceptionOf {is : List Instr} {s t : State} (all : ∀ i ∈ is, byteOrTick i = true)
    (h : run is s = some t) : ∃ u, t = s.withReceptionOf u := by
  refine run_keeps (P := fun t => ∃ u, t = s.withReceptionOf u) ?_ all h ⟨s, rfl⟩
  rintro i _ v event ran ⟨u, rfl⟩
  obtain ⟨hp, hr⟩ := event_of_byteOrTick event
  obtain ⟨w, rfl⟩ := exec_event_withReceptionOf i _ v hp hr ran
  exact ⟨w, rfl⟩

/-- R203: after a reception received bytes and ticks leave its status. -/
theorem run_byteOrTick_idle_rxStatus {is : List Instr} {s t : State} (all : ∀ i ∈ is, byteOrTick i = true)
    (h : run is s = some t) (idle : s.busy = false) : t.rxStatus = s.rxStatus := by
  refine (run_keeps (P := fun t => t.busy = false ∧ t.rxStatus = s.rxStatus) ?_ all h ⟨idle, rfl⟩).2
  rintro i u v event ran ⟨idle, status⟩
  obtain ⟨hp, hr⟩ := event_of_byteOrTick event
  have same := exec_event_idle_sameReception hp hr idle ran
  exact ⟨(busy_of_sameReception same).trans idle, same.2.1.trans status⟩

/-! ### A wait and its deadline (R200, R206) -/

/-- R200: ticks that a wait has more of count it down and do nothing else. -/
theorem run_ticks {k : Nat} {s : State} (busy : s.busy = true) (more : k < s.timer.toNat) :
    ∃ left r, left.toNat + k = s.timer.toNat
      ∧ run (List.replicate k .tick) s = some { s with timer := left, result := r } := by
  induction k generalizing s with
  | zero => exact ⟨s.timer, s.result, rfl, rfl⟩
  | succ k ih =>
    have counted := toNat_pred64 s.timer (by omega)
    obtain ⟨left, r, count, ran⟩ := ih (s := silent { s with timer := s.timer - 1 }) busy (by
      show k < (s.timer - 1).toNat
      omega)
    refine ⟨left, r, ?_, run_cons_eq_some.2 ⟨_, execTick_counts busy (by omega), ran⟩⟩
    have count : left.toNat + k = (s.timer - 1).toNat := count
    omega

/-- R206: a reception that one deadline alone bounds: it is in the header phase, or the byte timeout is off, and so no
received byte re-arms the timer. -/
def State.OneDeadline (s : State) : Prop := s.rxState = .header ∨ (byteTicks s = 0 ∧ s.busy = true)

/-- R206: such a state is in a reception. -/
theorem State.OneDeadline.busy {s : State} (hs : s.OneDeadline) : s.busy = true :=
  hs.elim (fun header => (busy_iff s).2 (.inl header)) And.right

/-- R194: no ended reception has a deadline left. -/
theorem not_oneDeadline_finish (e : Status) (s : State) : ¬ (silent (finish e s)).OneDeadline := fun h =>
  Bool.false_ne_true ((finish_busy e s).symm.trans h.busy)

/-- R192, R206: past the header, one deadline is left only where re-arming does nothing. -/
theorem State.OneDeadline.of_rearm {s : State} (h : (silent (rearm s)).OneDeadline) (payload : s.rxState = .payload) :
    byteTicks s = 0 ∧ (rearm s).timer = s.timer := by
  have notHeader : (silent (rearm s)).rxState ≠ .header := by rw [silent_rxState, rearm_rxState, payload]; decide
  obtain ⟨disabled, _⟩ := h.resolve_left notHeader
  exact ⟨disabled, congrArg State.timer (rearm_disabled s disabled)⟩

/-- R206: a received byte that leaves one deadline found one, and gives no time back. -/
theorem execRxByte_oneDeadline {b : Byte} {s t : State} (h : execRxByte b s = .next t) (ht : t.OneDeadline) :
    s.OneDeadline ∧ t.timer = s.timer := by
  rcases execRxByte_next b s t h with ⟨_, rfl⟩ | ⟨header, u, taken, rfl⟩ | ⟨payload, u, taken, rfl⟩
  · exact ⟨ht, rfl⟩
  · refine ⟨.inl header, ?_⟩
    obtain ⟨v, stored, ⟨_, complete⟩ | ⟨_, rfl⟩⟩ := (headerByte_ok b s u).1 taken <;>
      obtain ⟨_, _, rfl⟩ := (storeByte_ok b s _).1 stored
    · obtain ⟨n, _, ⟨_, rfl⟩ | ⟨_, rfl⟩⟩ := (headerComplete_ok _ u).1 complete
      · exact absurd ht (not_oneDeadline_finish _ _)
      · exact (ht.of_rearm rfl).2
    · rfl
  · obtain ⟨v, stored, ⟨_, complete⟩ | ⟨_, rfl⟩⟩ := (payloadByte_ok b s u).1 taken <;>
      obtain ⟨_, _, rfl⟩ := (storeByte_ok b s _).1 stored
    · obtain ⟨f, _, rfl⟩ := (frameComplete_ok _ u).1 complete
      exact absurd ht (not_oneDeadline_finish _ _)
    · obtain ⟨disabled, sameTimer⟩ := ht.of_rearm payload
      exact ⟨.inr ⟨disabled, (busy_iff s).2 (.inr payload)⟩, sameTimer⟩

/-- R200, R206: a tick that leaves one deadline found one, and counts. -/
theorem execTick_oneDeadline {s t : State} (h : execTick s = .next t) (ht : t.OneDeadline) :
    s.OneDeadline ∧ t.timer.toNat + 1 = s.timer.toNat := by
  rcases execTick_cases s t h with ⟨idle, rfl⟩ | ⟨_, _, rfl⟩ | ⟨_, notZero, _, rfl⟩
  · exact absurd (idle.symm.trans ht.busy) Bool.false_ne_true
  · exact absurd ht (not_oneDeadline_finish _ _)
  · have positive := mt (eq_zero64 _).2 notZero
    refine ⟨ht, ?_⟩
    show (s.timer - 1).toNat + 1 = _
    rw [toNat_pred64 _ positive]
    omega

/-- The ticks of a sequence that starts with a tick. -/
theorem tickCount_tick_cons (is : List Instr) : tickCount (.tick :: is) = tickCount is + 1 := List.count_cons_self

/-- The ticks of a sequence that starts with a received byte. -/
theorem tickCount_rxByte_cons (b : Byte) (is : List Instr) : tickCount (.rxByte b :: is) = tickCount is :=
  List.count_cons_of_ne (nofun : Instr.rxByte b ≠ .tick)

/-- R206: over received bytes and ticks that leave one deadline, `TIMER` and the ticks add up. -/
theorem run_oneDeadline {is : List Instr} {s t : State} (all : ∀ i ∈ is, byteOrTick i = true) (h : run is s = some t)
    (ht : t.OneDeadline) : s.OneDeadline ∧ t.timer.toNat + tickCount is = s.timer.toNat := by
  induction is generalizing s with
  | nil => cases h; exact ⟨ht, rfl⟩
  | cons i is ih =>
    obtain ⟨u, first, others⟩ := run_cons_eq_some.1 h
    obtain ⟨hi, allOthers⟩ := List.forall_mem_cons.1 all
    obtain ⟨hu, count⟩ := ih allOthers others
    cases i <;> simp only [byteOrTick, Bool.false_eq_true] at hi
    case rxByte b =>
      obtain ⟨hs, sameTimer⟩ := execRxByte_oneDeadline first hu
      exact ⟨hs, by rw [tickCount_rxByte_cons, count, sameTimer]⟩
    case tick =>
      obtain ⟨hs, counted⟩ := execTick_oneDeadline first hu
      exact ⟨hs, by rw [tickCount_tick_cons]; omega⟩

/-! ### A reception among ticks (R199, R205) -/

/-- R43, R51: a byte written at `RX_LEN`, which advances without wrapping, is held after those before it, whether or not
the parameters are legal (R5), and so below: R205 needs the frame to fit, no more. -/
theorem State.Holds.afterStore {s : State} {l : List Byte} (hs : s.Holds l) (b : Byte) (short : l.length < 4294967295) :
    (afterStore b s).Holds (l ++ [b]) := by
  have written : Memory.write s.rxBuf s.rxLen.toNat b = s.rxBuf ++ [(l.length, b)] := by
    rw [hs.length]; exact write_next _ _ _ hs.offsets
  refine ⟨?_, ?_, ?_⟩
  · simp [Machine.afterStore, written, hs.offsets, List.range_succ]
  · simp [Machine.afterStore, written, hs.bytes]
  · show (s.rxLen + 1).toNat = _
    rw [toNat_succ32 _ (by rw [hs.length]; exact short), hs.length, List.length_append, List.length_singleton]

/-- R51, R205: the block has the first `k` bytes of the frame `f` and waits for the others. -/
structure State.Awaits (s : State) (f : List Byte) (k : Nat) : Prop where
  more : k < f.length
  holds : s.Holds (f.take k)
  state : s.rxState = if k < 15 then .header else .payload
  remaining : s.rxRemaining.toNat = if k < 15 then 15 - k else f.length - k
  room : f.length ≤ s.params.maxFrameLen

/-- R199, R205: the block has the frame `f`, and ended the reception by the integrity check. -/
structure State.Received (s : State) (f : List Byte) : Prop where
  holds : s.Holds f
  remaining : s.rxRemaining = 0
  state : s.rxState = if integrityOk f then .done else .error
  status : s.rxStatus = if integrityOk f then .ok else .badCrc

/-- R205: the block has taken exactly the first `k` bytes of the frame `f`. -/
def State.Took (s : State) (f : List Byte) (k : Nat) : Prop := s.Awaits f k ∨ (k = f.length ∧ s.Received f)

/-- R39: a block that waits for bytes is busy. -/
theorem State.Awaits.busy {s : State} {f : List Byte} {k : Nat} (hs : s.Awaits f k) : s.busy = true := by
  have state := hs.state
  refine (busy_iff s).2 ?_
  split_ifs at state
  exacts [.inl state, .inr state]

/-- R205: the frame does not depend on `TIMER` and the result output. -/
theorem State.Took.withTimer {s : State} {f : List Byte} {k : Nat} (hs : s.Took f k) (x : Word64)
    (r : Option OpResult) : State.Took { s with timer := x, result := r } f k := by
  rcases hs with ⟨more, holds, state, remaining, room⟩ | ⟨whole, holds, remaining, state, status⟩
  · exact .inl ⟨more, holds.congr rfl rfl, state, remaining, room⟩
  · exact .inr ⟨whole, holds.congr rfl rfl, remaining, state, status⟩

section Frame

variable {s t : State} {f : List Byte} {n : Word16} {k : Nat}

/-- R200, R205: a tick takes no byte, or it is a timeout. -/
theorem State.Took.tick (hs : s.Took f k) (h : execTick s = .next t) :
    (t.busy = false ∧ t.rxStatus = .timeout) ∨ t.Took f k := by
  rcases execTick_cases s t h with ⟨_, rfl⟩ | ⟨_, _, rfl⟩ | ⟨_, _, _, rfl⟩
  · exact .inr (hs.withTimer s.timer none)
  · exact .inl ⟨rfl, rfl⟩
  · exact .inr (hs.withTimer (s.timer - 1) none)

/-- R195: a reception starts with every byte of a frame that fits to come. -/
theorem startReception_awaits (hf : Declares f n) (room : f.length ≤ s.params.maxFrameLen) :
    (answer (startReception s)).Awaits f 0 :=
  ⟨by have := hf.length; omega, ⟨rfl, rfl, rfl⟩, rfl, rfl, room⟩

/-- R196, R198: the next byte of the frame, stored. -/
theorem State.Awaits.store (hs : s.Awaits f k) (hf : Declares f n) :
    s.rxLen.toNat < s.params.maxFrameLen ∧ (Machine.afterStore (f[k]'hs.more) s).Holds (f.take (k + 1))
      ∧ (s.rxRemaining - 1).toNat + 1 = s.rxRemaining.toNat := by
  have more := hs.more
  have room := hs.room
  have remaining := hs.remaining
  have short : f.length < 4294967295 := by
    have := n.isLt
    have := hf.length
    omega
  have count : (f.take k).length = k := List.length_take_of_le more.le
  refine ⟨by rw [hs.holds.length]; omega, ?_, ?_⟩
  · rw [← List.take_append_getElem more]
    exact hs.holds.afterStore _ (by omega)
  · split_ifs at remaining <;> rw [toNat_pred32 _ (by omega)] <;> omega

/-- R196: a byte of the header but its last. -/
theorem State.Awaits.execRxByte_header (hs : s.Awaits f k) (hf : Declares f n) (header : k < 14) :
    ∃ t, execRxByte (f[k]'hs.more) s = .next t ∧ t.Awaits f (k + 1) := by
  obtain ⟨room, holds, fewer⟩ := hs.store hf
  have length := hf.length
  have state := hs.state
  have remaining := hs.remaining
  rw [if_pos (by omega)] at state remaining
  refine ⟨_, execRxByte_header_more room state (by omega), by omega, holds.congr rfl rfl, ?_, ?_, hs.room⟩
  · rw [if_pos (by omega)]; exact state
  · rw [if_pos (by omega)]
    exact Nat.eq_sub_of_add_eq (by omega : (s.rxRemaining - 1).toNat + (k + 1) = 15)

/-- R197: the last byte of the header, after which the declared payload and the trailer are to come. -/
theorem State.Awaits.execRxByte_header_last (hs : s.Awaits f 14) (hf : Declares f n) :
    ∃ t, execRxByte (f[14]'hs.more) s = .next t ∧ t.Awaits f 15 := by
  obtain ⟨room, holds, _⟩ := hs.store hf
  have length := hf.length
  have fits : f.length ≤ s.params.maxFrameLen := hs.room
  have complete := (headerComplete_ok (Machine.afterStore (f[14]'hs.more) s) _).2
    ⟨n, hf.dataLength (Nat.le_refl 15) holds, .inr ⟨by show 17 + n.toNat ≤ s.params.maxFrameLen; omega, rfl⟩⟩
  refine ⟨_, Machine.execRxByte_header_last room hs.state hs.remaining complete, by omega, holds.congr rfl rfl, rfl, ?_,
    fits⟩
  have := n.isLt
  rw [silent_rxRemaining, rearm_rxRemaining, BitVec.toNat_ofNat, if_neg (by decide)]
  omega

/-- R198: a byte of the payload or the trailer, but the last. -/
theorem State.Awaits.execRxByte_payload (hs : s.Awaits f k) (hf : Declares f n) (payload : 15 ≤ k)
    (more : k + 1 < f.length) : ∃ t, execRxByte (f[k]'hs.more) s = .next t ∧ t.Awaits f (k + 1) := by
  obtain ⟨room, holds, fewer⟩ := hs.store hf
  have state := hs.state
  have remaining := hs.remaining
  rw [if_neg (by omega)] at state remaining
  refine ⟨_, execRxByte_payload_more room state (by omega), more, holds.congr rfl rfl, ?_, ?_, hs.room⟩
  · rw [if_neg (by omega)]; exact state
  · rw [if_neg (by omega)]
    exact Nat.eq_sub_of_add_eq (by omega : (s.rxRemaining - 1).toNat + (k + 1) = f.length)

/-- R198, R199: the last byte of the frame. -/
theorem State.Awaits.execRxByte_last (hs : s.Awaits f k) (hf : Declares f n) (payload : 15 ≤ k)
    (last : k + 1 = f.length) : ∃ t, execRxByte (f[k]'hs.more) s = .next t ∧ t.Received f := by
  obtain ⟨room, holds, _⟩ := hs.store hf
  have state := hs.state
  have remaining := hs.remaining
  rw [if_neg (by omega)] at state remaining
  rw [List.take_of_length_le last.ge] at holds
  have oneLeft : s.rxRemaining.toNat = 1 := by omega
  have complete := (frameComplete_ok _ _).2 ⟨f, holds.readRange, rfl⟩
  refine ⟨_, execRxByte_payload_last room state oneLeft complete, holds.congr rfl rfl,
    (afterStore_rxRemaining_eq_zero (f[k]'hs.more) oneLeft.ge).2 oneLeft, ?_, ?_⟩ <;>
    cases integrityOk f <;> rfl

/-- R205: the next byte of the frame is taken. -/
theorem State.Awaits.execRxByte (hs : s.Awaits f k) (hf : Declares f n) :
    ∃ t, execRxByte (f[k]'hs.more) s = .next t ∧ t.Took f (k + 1) := by
  have more := hs.more
  have length := hf.length
  rcases Nat.lt_trichotomy k 14 with header | rfl | payload
  · exact (hs.execRxByte_header hf header).imp fun _ => And.imp_right .inl
  · exact (hs.execRxByte_header_last hf).imp fun _ => And.imp_right .inl
  rcases Nat.lt_or_ge (k + 1) f.length with before | last
  · exact (hs.execRxByte_payload hf payload before).imp fun _ => And.imp_right .inl
  · have last : k + 1 = f.length := by omega
    exact (hs.execRxByte_last hf payload last).imp fun _ => And.imp_right fun received => .inr ⟨last, received⟩

/-- R205: of received bytes that follow the frame the first is taken, and the others still follow it. -/
theorem State.Took.rxByte {b : Byte} {l : List Byte} (hs : s.Took f k) (hf : Declares f n)
    (follow : b :: l <+: f.drop k) (h : Machine.execRxByte b s = .next t) : t.Took f (k + 1) ∧ l <+: f.drop (k + 1) := by
  rcases hs with awaits | ⟨whole, _⟩
  · rw [List.drop_eq_getElem_cons awaits.more, List.cons_prefix_cons] at follow
    obtain ⟨rfl, follow⟩ := follow
    obtain ⟨u, ran, took⟩ := awaits.execRxByte hf
    cases ran.symm.trans h
    exact ⟨took, follow⟩
  · rw [List.drop_of_length_le whole.ge] at follow
    exact absurd follow.length_le (by simp)

/-- R205: however ticks fall between them, of received bytes that follow the frame all are taken, unless a wait runs
out. -/
theorem State.Took.run {is : List Instr} (hs : s.Took f k) (hf : Declares f n) (all : ∀ i ∈ is, byteOrTick i = true)
    (h : run is s = some t) (inTime : t.rxStatus ≠ .timeout) (follow : receivedBytes is <+: f.drop k) :
    t.Took f (k + (receivedBytes is).length) := by
  induction is generalizing s k with
  | nil => cases h; exact hs
  | cons i is ih =>
    obtain ⟨u, first, others⟩ := run_cons_eq_some.1 h
    obtain ⟨hi, allOthers⟩ := List.forall_mem_cons.1 all
    cases i <;> simp only [byteOrTick, Bool.false_eq_true] at hi
    case rxByte b =>
      have bytes : receivedBytes (.rxByte b :: is) = b :: receivedBytes is := rfl
      rw [bytes] at follow ⊢
      obtain ⟨took, follow⟩ := hs.rxByte hf follow first
      rw [List.length_cons, Nat.add_comm _ 1, ← Nat.add_assoc]
      exact ih took allOthers others follow
    case tick =>
      have bytes : receivedBytes (.tick :: is) = receivedBytes is := rfl
      rw [bytes] at follow ⊢
      rcases hs.tick first with ⟨idle, timeout⟩ | took
      · exact absurd ((run_byteOrTick_idle_rxStatus allOthers others idle).trans timeout) inTime
      · exact ih took allOthers others follow

end Frame

/-- R94, R108: the frame's own length field. -/
theorem declares_be16 {f : List Byte} {h l : Byte} (high : f[13]? = some h) (low : f[14]? = some l)
    (length : f.length = 17 + (h.toNat * 256 + l.toNat)) : Declares f (be16 h l) :=
  ⟨by rw [hi8_be16, high], by rw [lo8_be16, low], by rw [be16_toNat, length]⟩

end Sys2Proof.Machine

namespace Sys2Proof.Proofs

open Machine Statements

/-- Settles O14: the byte is stored; the last one completes the header, by the length it declares. -/
theorem headerByteIsStored : Obligations.HeaderByteIsStored := by
  intro b s hst room buf
  refine ⟨fun more => ⟨none, execRxByte_header_more room hst more⟩, fun last h l high low => ?_⟩
  have noneLeft : s.rxRemaining - 1 = 0 := (afterStore_rxRemaining_eq_zero b last.ge).2 last
  have declared : dataLength (afterStore b s).rxBuf = some (be16 h l) :=
    (dataLength_some _ _).2 ⟨h, l, high, low, rfl⟩
  have complete := fun t => (headerComplete_ok (afterStore b s) t).2
  simp only [declared, Option.some.injEq, exists_eq_left', be16_toNat, rearm_eq_rearmed] at complete
  constructor
  · intro fits
    exact ⟨none, execRxByte_header_last room hst last (complete _ (.inr ⟨fits, rfl⟩))⟩
  · intro long
    refine ⟨none, (execRxByte_header_last room hst last (complete _ (.inl ⟨long, rfl⟩))).trans ?_⟩
    rw [← noneLeft]; rfl

/-- Settles O15: the byte is stored; the last one completes the frame, by the trailer. -/
theorem payloadByteIsStored : Obligations.PayloadByteIsStored := by
  intro b s hst room buf
  refine ⟨fun more => ⟨none, ?_⟩, fun last body x y read => ?_⟩
  · rw [exec, execRxByte_payload_more room hst more, rearm_eq_rearmed]; rfl
  have noneLeft : s.rxRemaining - 1 = 0 := (afterStore_rxRemaining_eq_zero b last.ge).2 last
  have ends := execRxByte_payload_last room hst last ((frameComplete_ok (afterStore b s) _).2 ⟨_, read, rfl⟩)
  have intact : integrityOk (body ++ [x, y]) = true ↔ x = lo8 (crc16 body) ∧ y = hi8 (crc16 body) :=
    integrityOk_append body x y
  rw [← intact, ← noneLeft]
  constructor
  · intro right
    rw [if_pos right] at ends
    exact ⟨none, ends⟩
  · intro wrong
    rw [if_neg wrong] at ends
    exact ⟨none, ends⟩

/-- Settles O35: behind an input that is not accepted the same input is taken, and its `exec` looks at nothing else that
is presented. -/
theorem unacceptedInputStaysPresented : Obligations.UnacceptedInputStaysPresented := by
  intro x xs s t notTaken h
  have behind := takeInput_cons_of_not_takes xs notTaken
  rcases step_next_cases _ t h with ⟨nothing, rfl⟩ | ⟨k, i, rest, taken, decoded, ran⟩
  · replace nothing : takeInput s.rxAccept xs = none := nothing
    rw [nothing] at behind
    exact step_of_takeInput_none _ behind
  · replace taken : takeInput s.rxAccept xs = some k := taken
    rw [taken, Option.map_some] at behind
    replace ran : exec i (s.withInputs (k.remaining rest)) = .next t := ran
    have stays : t.inputs = k.remaining rest := exec_inputs ran
    rw [step_of_takeInput_some _ { k with before := x :: k.before } i rest behind decoded, stays]
    show exec i ((s.withInputs (k.remaining rest)).withInputs (x :: k.remaining rest))
      = .next (t.withInputs (x :: k.remaining rest))
    exact exec_withInputs _ ran

/-- Settles O42: of the host operations only `RX_START` writes the fields. -/
theorem hostOperationsLeaveReceptionAlone : Obligations.HostOperationsLeaveReceptionAlone :=
  fun _ _ _ => exec_host_sameReception

/-- Settles O43: outside a reception an event is not accepted, or a tick that counts nothing. -/
theorem endedReceptionIsFrozen : Obligations.EndedReceptionIsFrozen :=
  fun _ _ _ => exec_idle_sameReception

/-- Settles O44, event by event: no host operation ends a reception. -/
theorem receptionEndsOnlyByItsEvents : Obligations.ReceptionEndsOnlyByItsEvents := by
  intro i s t busy h ended
  by_cases hp : portOf i = .event
  · cases i <;> simp only [portOf, reduceCtorEq] at hp
    case reset => cases h; exact .inl ⟨rfl, rfl, rfl⟩
    case rxByte b => exact .inr (.inl ⟨⟨b, rfl⟩, execRxByte_ends busy h ended⟩)
    case tick =>
      rcases execTick_cases s t h with ⟨idle, _⟩ | ⟨_, _, rfl⟩ | ⟨_, _, _, rfl⟩
      · exact absurd (idle.symm.trans busy) Bool.false_ne_true
      · exact .inr (.inr (.inl ⟨rfl, rfl, rfl, rfl⟩))
      · exact absurd (ended.symm.trans busy) Bool.false_ne_true
    case rxEof =>
      cases (execRxEof_busy busy).symm.trans h
      exact .inr (.inr (.inr (.inl ⟨rfl, rfl, rfl⟩)))
    case rxError code =>
      cases (execRxError_busy code busy).symm.trans h
      exact .inr (.inr (.inr (.inr ⟨code, rfl, rfl, rfl, rfl⟩)))
  · exact absurd (ended.symm.trans (exec_host_busy hp busy h)) Bool.false_ne_true

/-- Settles O49: `k` ticks count the wait down to its last, which ends it. -/
theorem waitTimesOutOnItsLastTick : Obligations.WaitTimesOutOnItsLastTick := by
  intro k s busy wait
  obtain ⟨left, r, count, ran⟩ := run_ticks (k := k) busy (by omega)
  have oneLeft : left = 1#64 := BitVec.eq_of_toNat_eq (by show left.toNat = 1; omega)
  subst oneLeft
  refine ⟨⟨_, ran, rfl, rfl⟩, ?_⟩
  have last := execTick_last (s := { s with timer := 1#64, result := r }) busy rfl
  rw [List.replicate_succ']
  exact ⟨_, run_snoc _ .tick s _ _ ran last, rfl, rfl, rfl, rfl, rfl, rfl⟩

/-- Settles O50: a reception that is left with its one deadline had it all along. -/
theorem oneDeadlineWithoutRearming : Obligations.OneDeadlineWithoutRearming := by
  intro is s t _ all h unarmed
  have oneDeadline : t.OneDeadline := by
    refine unarmed.imp_right fun ⟨noSec, noUsec, busy⟩ => ⟨?_, busy⟩
    obtain ⟨u, rfl⟩ := run_byteOrTick_withReceptionOf all h
    exact (timeoutTicks_eq_zero _ _).2 ⟨noSec, noUsec⟩
  exact (run_oneDeadline all h oneDeadline).2

/-- Settles O51: from `RX_START` on the block has taken exactly the bytes received so far; the frame ends the
reception. -/
theorem receptionTakesTheDeclaredLength : Obligations.ReceptionTakesTheDeclaredLength := by
  intro f h l s0 s t is idle start high low length fits all ran inTime
  have declares := declares_be16 high low length
  cases (execRxStart_idle s0 idle).symm.trans start
  have took (bytes : receivedBytes is <+: f) : t.Took f (receivedBytes is).length := by
    have atStart : State.Took _ f 0 := .inl (startReception_awaits declares fits)
    simpa using atStart.run declares all ran inTime bytes
  constructor
  · intro bytes proper
    rcases took bytes with awaits | ⟨whole, _⟩
    · have holds := awaits.holds
      rw [← List.prefix_iff_eq_take.1 bytes] at holds
      exact ⟨awaits.busy, holds.length, holds.read⟩
    · exact absurd (bytes.eq_of_length whole) proper
  · intro bytes
    rcases took (bytes ▸ List.prefix_rfl) with awaits | ⟨_, received⟩
    · exact absurd awaits.more (by rw [bytes]; exact Nat.lt_irrefl _)
    · have state := received.state
      have status := received.status
      refine ⟨received.holds.length, received.remaining, received.holds.read, fun right => ?_, fun wrong => ?_⟩
      · rw [if_pos right] at state status
        exact ⟨state, status⟩
      · rw [wrong] at state status
        exact ⟨state, status⟩

/-- Settles O10: the two cases of R195, and the encoder's byte read back. -/
theorem rxStartArmsTheHeaderPhase : Obligations.RxStartArmsTheHeaderPhase :=
  ⟨fun s => ⟨execRxStart_busy, execRxStart_idle s⟩, read_cleared,
    fun rest => decode_encode_of_legal .rxStart rest rfl rfl⟩

/-- Settles O11: the two ways a read completes; a filled buffer holds a byte at every received offset. -/
theorem rxReadReturnsAReceivedByte : Obligations.RxReadReturnsAReceivedByte := by
  intro i s
  refine ⟨fun received b held => ?_, fun ⟨filled, _⟩ received => ?_, fun past => ?_,
    fun rest => decode_encode_of_legal (.rxRead i) rest rfl rfl⟩
  · exact (execRxRead_next_iff i s _).2 (.inr ⟨received, b, held, rfl⟩)
  · exact Option.isSome_iff_exists.1 ((filled_isSome s.rxBuf s.rxLen.toNat filled i.toNat).2 received)
  · exact (execRxRead_next_iff i s _).2 (.inl ⟨past, rfl⟩)

/-- Settles O16: the two ways a tick counts, and the one in which it does not. -/
theorem tickCountsTheWaitDown : Obligations.TickCountsTheWaitDown :=
  ⟨fun s => ⟨fun busy more => ⟨none, execTick_counts busy more⟩, fun busy last => ⟨none, execTick_last busy last⟩,
    fun idle => ⟨none, execTick_idle s idle⟩⟩, fun rest => decode_encode_of_legal .tick rest rfl rfl⟩

/-- Settles O17: the two cases of R201 and R193, and the encoder's byte read back. -/
theorem endOfStreamEndsTheReception : Obligations.EndOfStreamEndsTheReception :=
  ⟨fun _ => ⟨fun busy => ⟨none, execRxEof_busy busy⟩, execRxEof_idle⟩,
    fun rest => decode_encode_of_legal .rxEof rest rfl rfl⟩

/-- Settles O18: the two cases of R202 and R193, and the encoder's bytes read back. -/
theorem transportErrorIsKept : Obligations.TransportErrorIsKept := fun code _ =>
  ⟨fun busy => ⟨none, execRxError_busy code busy⟩, execRxError_idle code,
    fun rest => decode_encode_of_legal (.rxError code) rest rfl rfl⟩

/-- Settles O20: what is taken goes by `rx_accept`, which is busy; what is not taken changes nothing. -/
theorem unacceptedEventsTakeNoStep : Obligations.UnacceptedEventsTakeNoStep := by
  intro s
  refine ⟨fun outside => ?_, fun inside => ?_, ?_, ?_⟩
  · have idle := (not_busy_iff s).2 outside
    have accept : s.rxAccept = false := idle
    rw [accept]
    exact ⟨rfl, fun b => ⟨execRxByte_idle b s idle, rfl⟩, ⟨execRxEof_idle idle, rfl⟩,
      fun code => ⟨execRxError_idle code idle, rfl⟩⟩
  · have accept : s.rxAccept = true := (busy_iff s).2 inside
    rw [accept]
    exact ⟨rfl, fun b => Laws.Presented.rxByte b, Laws.Presented.rxEof, fun code => Laws.Presented.rxError code⟩
  · cases s.rxAccept <;> rfl
  · cases s.rxAccept <;> rfl

end Sys2Proof.Proofs

/-! PROOFS. The statement on spec/44_confirmation.md: the classification of a received frame (R230 to R237). -/

namespace Sys2Proof.Machine

open Statements

/-! ### The checks of the classification (R231 to R235) -/

/-- R231: a frame fails the pre-check on either address. -/
theorem precheck_eq_false_iff (req : Request) (f : FrameHeader) :
    precheck req f = false ↔ f.src ≠ req.dst ∨ f.dst ≠ req.src := by
  simp only [precheck, Bool.and_eq_false_iff, beq_eq_false_iff_ne]

/-- R98: bit 7 of a command byte. -/
theorem highBit_iff (cmd : Byte) : highBit cmd = true ↔ 0x80 ≤ cmd.toNat := decide_eq_true_iff

/-- R170, R233: a response has a wrong length where its command has one (all but 0x03) and it is another. -/
theorem wrongLength_iff (cmd : Byte) (len : Nat) :
    (computeResponseLength cmd ≠ none ∧ computeResponseLength cmd ≠ some len) ↔ cmd ≠ 0x03 ∧ len ≠ 17 := by
  unfold computeResponseLength
  split_ifs with version
  · simp only [version, ne_eq, not_true_eq_false, false_and]
  · simp only [version, minFrame, ne_eq, reduceCtorEq, not_false_eq_true, true_and, Option.some.injEq, eq_comm]

/-- R72, R235: a field read from two bytes is compared by its value. -/
theorem be16_ne_iff (h l : Byte) (v : Word16) : be16 h l ≠ v ↔ h.toNat * 256 + l.toNat ≠ v.toNat := by
  rw [ne_eq, ← BitVec.toNat_inj, be16_toNat]

/-- R237: a confirmation answers by the first check of the classification that decides; `apply_ite` takes the answer into
the branches. -/
theorem confirmResult_classify (s : State) (f : FrameHeader) (len : Nat) :
    confirmResult s (classify s.request f len) =
      if f.src ≠ s.reqDst ∨ f.dst ≠ s.reqSrc then refusedWith .badSlave s
      else if 0x80 ≤ f.cmd.toNat then
        if len = 17 ∧ f.cmd = s.reqCmd ||| 0x80 then refusedWith .excNack s else refusedWith .badException s
      else if s.reqCmd ≠ 0x03 ∧ len ≠ 17 then refusedWith .badData s
      else if f.cmd ≠ s.reqCmd then refusedWith .badData s
      else if f.seq ≠ s.reqSeq then refusedWith .badData s
      else returned (.word (packLocation dataOff f.dataLen)) s := by
  simp only [classify, precheck_eq_false_iff, highBit_iff, wrongLength_iff, apply_ite (confirmResult s)]
  rfl

end Sys2Proof.Machine

namespace Sys2Proof.Proofs

open Machine Statements

/-- Settles O12: the two ways a confirmation is not ready, the classification of the received header, and the encoder's
byte read back. -/
theorem rxConfirmClassifiesTheFrame : Obligations.RxConfirmClassifiesTheFrame := by
  refine ⟨fun s notDone => execRxConfirm_notReady s (.inl notDone),
    fun s noRequest => execRxConfirm_notReady s (.inr noRequest), ?_,
    fun rest => decode_encode_of_legal .rxConfirm rest rfl rfl⟩
  intro f8 f9 f10 f11 f12 f13 f14 s done request long h8 h9 h10 h11 h12 h13 h14
  have header := receivedHeader_some s long f8 f9 f10 f11 f12 f13 f14 h8 h9 h10 h11 h12 h13 h14
  have confirm := execRxConfirm_classified s _ done request header
  simp only [confirmResult_classify, be16_ne_iff, packLocation_eq, be16_toNat] at confirm
  exact confirm

end Sys2Proof.Proofs

/-! PROOFS. The statement on spec/60_exceptions.md: no input traps or stops the block (R250). -/

namespace Sys2Proof.Machine

/-! ### The guards hold under the invariant (R8, R9, R51) -/

/-- R51, `HEADER`: the counters. -/
theorem header_counts {s : State} (legal : s.receptionLegal) (hst : s.rxState = .header) :
    s.rxLen.toNat + s.rxRemaining.toNat = 15 ∧ 1 ≤ s.rxRemaining.toNat := by
  rw [State.receptionLegal, hst] at legal
  obtain ⟨count, left, _⟩ := legal
  exact ⟨count, left⟩

/-- R51, `PAYLOAD`: the counters. -/
theorem payload_counts {s : State} (legal : s.receptionLegal) (hst : s.rxState = .payload) :
    s.rxLen.toNat + s.rxRemaining.toNat ≤ s.params.maxFrameLen ∧ 1 ≤ s.rxRemaining.toNat := by
  rw [State.receptionLegal, hst] at legal
  obtain ⟨counts, _, left, _⟩ := legal
  cases declared : dataLength s.rxBuf with
  | none => rw [declared] at counts; exact counts.elim
  | some n =>
    rw [declared] at counts
    obtain ⟨count, fits⟩ := counts
    exact ⟨count ▸ fits, left⟩

/-- R51, `DONE`: the frame has a whole header. -/
theorem done_header {s : State} (legal : s.receptionLegal) (hst : s.rxState = .done) : 15 ≤ s.rxLen.toNat := by
  rw [State.receptionLegal, hst] at legal
  obtain ⟨_, counts, _⟩ := legal
  cases declared : dataLength s.rxBuf with
  | none => rw [declared] at counts; exact counts.elim
  | some n =>
    rw [declared] at counts
    have length : s.rxLen.toNat = 17 + n.toNat := counts
    omega

/-- R8, R70: a busy block has room for a byte and waits for one. -/
theorem room_and_left_of_busy {s : State} (params : s.params.legal = true) (legal : s.receptionLegal)
    (busy : s.busy = true) : s.rxLen.toNat < s.params.maxFrameLen ∧ 1 ≤ s.rxRemaining.toNat := by
  obtain ⟨⟨frameMin, _⟩, _⟩ := (params_legal_iff s.params).1 params
  rcases (busy_iff s).1 busy with hst | hst
  · obtain ⟨count, left⟩ := header_counts legal hst
    exact ⟨by omega, left⟩
  · obtain ⟨count, left⟩ := payload_counts legal hst
    exact ⟨by omega, left⟩

/-- R9, R51: below the length of a filled buffer no cell is `⊥`. -/
theorem filled_read {m : List Host.Cell} {n a : Nat} (filled : m.map Prod.fst = List.range n) (below : a < n) :
    ∃ b, Memory.read m a = some b :=
  Option.isSome_iff_exists.1 ((filled_isSome m n filled a).2 below)

/-- R9, R108: nor is one of the header fields that a confirmation reads. -/
theorem receivedHeader_of_filled {s : State} (filled : s.bufferFilled) (header : 15 ≤ s.rxLen.toNat) :
    ∃ f, receivedHeader s = some f := by
  obtain ⟨cells, _⟩ := filled
  have read (a : Nat) (ha : a < 15) := filled_read cells (a := a) (by omega)
  obtain ⟨f8, h8⟩ := read 8 (by decide)
  obtain ⟨f9, h9⟩ := read 9 (by decide)
  obtain ⟨f10, h10⟩ := read 10 (by decide)
  obtain ⟨f11, h11⟩ := read 11 (by decide)
  obtain ⟨f12, h12⟩ := read 12 (by decide)
  obtain ⟨f13, h13⟩ := read 13 (by decide)
  obtain ⟨f14, h14⟩ := read 14 (by decide)
  exact ⟨_, receivedHeader_some s header f8 f9 f10 f11 f12 f13 f14 h8 h9 h10 h11 h12 h13 h14⟩

/-! ### Every input completes under the invariant (R250) -/

/-- R197: a header in a filled buffer completes, within `MAX_FRAME_LEN` or past it. -/
theorem headerComplete_completes {s : State} (filled : s.bufferFilled) (header : 15 ≤ s.rxLen.toNat) :
    ∃ t, headerComplete s = .ok t := by
  obtain ⟨n, declared⟩ := filled_dataLength s.rxBuf _ filled.1 header
  rcases Nat.lt_or_ge s.params.maxFrameLen (17 + n.toNat) with tooLong | fits
  · exact ⟨_, (headerComplete_ok s _).2 ⟨n, declared, .inl ⟨tooLong, rfl⟩⟩⟩
  · exact ⟨_, (headerComplete_ok s _).2 ⟨n, declared, .inr ⟨fits, rfl⟩⟩⟩

/-- R198, R199: a frame in a filled buffer completes. -/
theorem frameComplete_completes {s : State} (filled : s.bufferFilled) : ∃ t, frameComplete s = .ok t :=
  ⟨_, (frameComplete_ok s _).2 ⟨_, filled_readRange s.rxBuf _ filled.1, rfl⟩⟩

/-- R193, R196, R198: a received byte, by the state it finds and whether it is the last of its phase. -/
theorem execRxByte_completes (b : Byte) {s : State} (params : s.params.legal = true) (hs : s.receptionInv) :
    ∃ t, execRxByte b s = .next t := by
  have ⟨_, legal, _⟩ := hs
  cases busy : s.busy with
  | false => exact ⟨s, execRxByte_idle b s busy⟩
  | true =>
    obtain ⟨room, left⟩ := room_and_left_of_busy params legal busy
    have stored := storeByte_eq_afterStore b room left
    obtain ⟨going, _⟩ := (inReception_of_busy s hs busy).storeByte b _ params stored
    rcases (busy_iff s).1 busy with hst | hst <;> rcases Nat.eq_or_lt_of_le left with last | more
    · obtain ⟨longer, _⟩ := storeByte_counts b s _ params stored
      obtain ⟨count, _⟩ := header_counts legal hst
      obtain ⟨t, complete⟩ := headerComplete_completes going.filled (by omega)
      exact ⟨_, execRxByte_header_last room hst last.symm complete⟩
    · exact ⟨_, execRxByte_header_more room hst more⟩
    · obtain ⟨t, complete⟩ := frameComplete_completes going.filled
      exact ⟨_, execRxByte_payload_last room hst last.symm complete⟩
    · exact ⟨_, execRxByte_payload_more room hst more⟩

/-- R45, R200: a tick, whose wait is not 0 while the block is busy. -/
theorem execTick_completes {s : State} (counters : s.countersLegal) : ∃ t, execTick s = .next t := by
  obtain ⟨_, _, _, armed⟩ := counters
  cases busy : s.busy with
  | false => exact ⟨_, execTick_idle s busy⟩
  | true =>
    rcases Nat.eq_or_lt_of_le (armed busy) with last | more
    · exact ⟨_, execTick_last busy last.symm⟩
    · exact ⟨_, execTick_counts busy more⟩

/-- R204: a read of the receive buffer, past the received bytes or of one of them. -/
theorem execRxRead_completes (k : Word32) {s : State} (filled : s.bufferFilled) : ∃ t, execRxRead k s = .next t := by
  rcases Nat.lt_or_ge k.toNat s.rxLen.toNat with received | past
  · obtain ⟨b, held⟩ := filled_read filled.1 received
    exact ⟨_, (execRxRead_next_iff k s _).2 (.inr ⟨received, b, held, rfl⟩)⟩
  · exact ⟨_, (execRxRead_next_iff k s _).2 (.inl ⟨past, rfl⟩)⟩

/-- R237: a confirmation, not ready or of a whole received frame. -/
theorem execRxConfirm_completes {s : State} (filled : s.bufferFilled) (legal : s.receptionLegal) :
    ∃ t, execRxConfirm s = .next t := by
  by_cases done : s.rxState = .done
  · cases request : s.reqValid with
    | false => exact ⟨_, execRxConfirm_notReady s (.inr request)⟩
    | true =>
      obtain ⟨f, header⟩ := receivedHeader_of_filled filled (done_header legal done)
      exact ⟨_, execRxConfirm_classified s f done request header⟩
  · exact ⟨_, execRxConfirm_notReady s (.inl done)⟩

/-- R250: every input has a next state under the invariant; the other inputs than these four have one from every
state. -/
theorem exec_completes (i : Instr) {s : State} (hs : s.Inv) : ∃ t, exec i s = .next t := by
  obtain ⟨⟨params, _⟩, _, reception⟩ := hs
  have ⟨filled, legal, counters⟩ := reception
  cases i with
  | rxByte b => exact execRxByte_completes b params reception
  | tick => exact execTick_completes counters
  | rxRead k => exact execRxRead_completes k filled
  | rxConfirm => exact execRxConfirm_completes filled legal
  | rxEof | rxError _ | reset => exact ⟨_, rfl⟩
  | setSlave _ | setOwnAddr _ | setRespTimeout _ _ | setByteTimeout _ _ | readReg _ | crcInit | crcUpdate _
  | txBuild _ _ | rxStart => exact ⟨_, rfl⟩
  | cmdSetColor _ | cmdSetMode _ | cmdOta _ | cmdGetVersion _ | cmdSetOutput _ | cmdUnrecognized _ _
  | cmdException _ _ => exact ⟨_, rfl⟩
  | illegalOp00 | illegalOp06To07 _ | illegalOp08To0F _ | illegalOp12To13 _ | illegalOp14To17 _ | illegalOp18To1F _
  | illegalOp21 | illegalOp22To23 _ | illegalOp24To27 _ | illegalOp28To2F _ | illegalOp33 | illegalOp34To37 _
  | illegalOp38To3F _ | illegalOp40To7F _ | illegalOp80ToFF _ => exact ⟨_, rfl⟩

/-- R104, R106: a step that takes bytes of no input is refused (notes/assumptions/12.md). -/
theorem step_of_decode_error {s : State} {k : Taken} {e : DecodeError} (taken : takeInput s.rxAccept s.inputs = some k)
    (noInput : decode k.chunk.port k.chunk.bytes = .error e) : step s = .refused (.undecodable e) := by
  simp only [step, taken, noInput]

/-- R10, R250: a step under the invariant has a next state, or takes bytes of no input. -/
theorem step_completes_or_undecodable {s : State} (hs : s.Inv) :
    (∃ t, step s = .next t) ∨ ∃ e, step s = .refused (.undecodable e) := by
  cases taken : takeInput s.rxAccept s.inputs with
  | none => exact .inl ⟨s, step_of_takeInput_none s taken⟩
  | some k =>
    cases decoded : decode k.chunk.port k.chunk.bytes with
    | error e => exact .inr ⟨e, step_of_decode_error taken decoded⟩
    | ok input =>
      obtain ⟨i, rest⟩ := input
      obtain ⟨t, ran⟩ := exec_completes i (s := { s with inputs := k.remaining rest }) hs
      exact .inl ⟨t, (step_of_takeInput_some s k i rest taken decoded).trans ran⟩

end Sys2Proof.Machine

namespace Sys2Proof.Proofs

open Machine Statements

/-- Settles O56: a step under the invariant has a next state, but for bytes that are no input. -/
theorem noStepFaultsUnderTheInvariant : Obligations.NoStepFaultsUnderTheInvariant := by
  intro s hs
  rcases step_completes_or_undecodable hs with ⟨t, next⟩ | ⟨e, refused⟩
  · rw [State.stepSafe, next]
    exact ⟨by simp, by simp⟩
  · rw [State.stepSafe, refused]
    exact ⟨by simp, fun r same => ⟨e, (Host.Outcome.refused.inj same).symm⟩⟩

end Sys2Proof.Proofs

/-! PROOFS. The statement on spec/70_reset_and_hazards.md: the reset event (R270). -/

namespace Sys2Proof.Machine

/-! ### The reset event (R270) -/

/-- R270: from every state a reset keeps the parameters and what is still presented, and nothing else. -/
theorem exec_reset (s : State) : exec .reset s = .next { State.resetOf s.params with inputs := s.inputs } := rfl

/-- R270: a block just reset, with nothing presented, is what its reset gives again. -/
theorem exec_reset_resetOf (p : Params) : exec .reset (State.resetOf p) = .next (State.resetOf p) :=
  exec_reset (State.resetOf p)

end Sys2Proof.Machine

namespace Sys2Proof.Proofs

open Machine Statements

/-- Settles O19: a reset gives `State.resetOf` of the parameters, whose fields are R270's list in its order, and the
encoder's byte reads back. -/
theorem resetSetsEveryField : Obligations.ResetSetsEveryField := by
  refine ⟨fun rest => decode_encode_of_legal .reset rest rfl rfl, exec_reset_resetOf Config.params,
    fun s => ⟨_, exec_reset s, ?_⟩⟩
  generalize s.params = p
  exact ⟨resetOf_slaveValid p, resetOf_slave p, resetOf_ownAddr p, resetOf_seq p,
    resetOf_respToSec p, resetOf_respToUsec p, resetOf_byteToSec p, resetOf_byteToUsec p,
    resetOf_crc p, resetOf_rxState p, resetOf_rxStatus p, resetOf_rxErrcode p,
    read_cleared, resetOf_rxLen p, resetOf_rxRemaining p, resetOf_timer p,
    resetOf_reqValid p, resetOf_reqDst p, resetOf_reqSrc p, resetOf_reqSeq p, resetOf_reqCmd p,
    resetOf_params p⟩

end Sys2Proof.Proofs
